-- ==== Sys2Proof/Word.lean ====
section
/-! DEFINITION. The word types of the CHIP-8 engine (spec `00_scope.md` R7, R10, R12). Every value is unsigned. -/

namespace Sys2Proof

/-- A memory byte, a V register, a timer, the stack pointer, or an immediate `NN` (R7, R12). -/
abbrev Byte := BitVec 8

/-- An opcode, `I`, `PC` or a stack slot (R7). -/
abbrev Word := BitVec 16

/-- A 12-bit immediate address `NNN` (R12). -/
abbrev Addr := BitVec 12

/-- A 4-bit field of an opcode (R9). -/
abbrev Nibble := BitVec 4

/-- The number of a general register, V0 to VF. An X or Y field is 4 bits wide, so no other number exists (R22, R82). -/
abbrev RegIdx := Fin 16

/-- VF, the register that is also the flag register (R23). -/
abbrev regF : RegIdx := 15

/-- V0, the register BNNN adds (R132). -/
abbrev reg0 : RegIdx := 0

end Sys2Proof
end

