-- ==== Sys2Proof/Syntax.lean ====
section
/-! DEFINITION. The instructions: one constructor for each of the 35 rows of `spec/opcode_table.json` (`30_encoding.md` R84). -/

namespace Sys2Proof

/-- A decoded instruction. `x` and `y` are register numbers, `n` a count, `nn` a byte, `nnn` a 12-bit address (R12, R82).
An unknown opcode is no instruction: the decoder refuses it by name and the cycle runs it as a no-op (R85, R104). -/
inductive Instr where
  /-- `0NNN` SYS NNN: machine-code call, a logged no-op (R120). -/
  | sys (nnn : Addr)
  /-- `00E0` CLS (R180). -/
  | cls
  /-- `00EE` RET (R121). -/
  | ret
  /-- `1NNN` JP NNN (R122). -/
  | jp (nnn : Addr)
  /-- `2NNN` CALL NNN (R123). -/
  | call (nnn : Addr)
  /-- `3XNN` SE VX, NN (R125). -/
  | seImm (x : RegIdx) (nn : Byte)
  /-- `4XNN` SNE VX, NN (R126). -/
  | sneImm (x : RegIdx) (nn : Byte)
  /-- `5XY0` SE VX, VY (R127). -/
  | seReg (x y : RegIdx)
  /-- `6XNN` LD VX, NN (R140). -/
  | ldImm (x : RegIdx) (nn : Byte)
  /-- `7XNN` ADD VX, NN (R141). -/
  | addImm (x : RegIdx) (nn : Byte)
  /-- `8XY0` LD VX, VY (R142). -/
  | ldReg (x y : RegIdx)
  /-- `8XY1` OR VX, VY (R143). -/
  | orReg (x y : RegIdx)
  /-- `8XY2` AND VX, VY (R144). -/
  | andReg (x y : RegIdx)
  /-- `8XY3` XOR VX, VY (R145). -/
  | xorReg (x y : RegIdx)
  /-- `8XY4` ADD VX, VY (R146). -/
  | addReg (x y : RegIdx)
  /-- `8XY5` SUB VX, VY (R147). -/
  | subReg (x y : RegIdx)
  /-- `8XY6` SHR VX; `y` is encoded and ignored (R148). -/
  | shr (x y : RegIdx)
  /-- `8XY7` SUBN VX, VY (R149). -/
  | subnReg (x y : RegIdx)
  /-- `8XYE` SHL VX; `y` is encoded and ignored (R150). -/
  | shl (x y : RegIdx)
  /-- `9XY0` SNE VX, VY (R128). -/
  | sneReg (x y : RegIdx)
  /-- `ANNN` LD I, NNN (R160). -/
  | ldI (nnn : Addr)
  /-- `BNNN` JP V0, NNN (R132). -/
  | jpV0 (nnn : Addr)
  /-- `CXNN` RND VX, NN (R151). -/
  | rnd (x : RegIdx) (nn : Byte)
  /-- `DXYN` DRW VX, VY, N (R181). -/
  | drw (x y : RegIdx) (n : Nibble)
  /-- `EX9E` SKP VX (R190). -/
  | skp (x : RegIdx)
  /-- `EXA1` SKNP VX (R191). -/
  | sknp (x : RegIdx)
  /-- `FX07` LD VX, DT (R193). -/
  | ldVxDt (x : RegIdx)
  /-- `FX0A` LD VX, K (R192). -/
  | ldVxK (x : RegIdx)
  /-- `FX15` LD DT, VX (R194). -/
  | ldDtVx (x : RegIdx)
  /-- `FX18` LD ST, VX (R195). -/
  | ldStVx (x : RegIdx)
  /-- `FX1E` ADD I, VX (R161). -/
  | addI (x : RegIdx)
  /-- `FX29` LD F, VX (R162). -/
  | ldF (x : RegIdx)
  /-- `FX33` LD B, VX (R163). -/
  | ldB (x : RegIdx)
  /-- `FX55` LD [I], VX (R164). -/
  | storeRegs (x : RegIdx)
  /-- `FX65` LD VX, [I] (R165). -/
  | loadRegs (x : RegIdx)
deriving DecidableEq, Repr

end Sys2Proof
end

