-- ==== Sys2Proof/Decode.lean ====
section
/-! DEFINITION. The decoder, total on every 16-bit value and rejecting unknown opcodes by name (`30_encoding.md` R80 to R85),
and after it the encoder, written from the same table (R84). -/

namespace Sys2Proof

/-! ## Bytes and fields -/

/-- The byte at the lower address is the high byte (`20_memory.md` R60). -/
def opcodeOfBytes (hi lo : Byte) : Word := hi ++ lo

/-- The high byte of an opcode, the one that stands at the lower address (R60). -/
def opcodeHigh (op : Word) : Byte := op.extractLsb' 8 8

/-- The low byte of an opcode (R60). -/
def opcodeLow (op : Word) : Byte := op.extractLsb' 0 8

/-- `F` = op[15:12], the family (R81). -/
def fieldF (op : Word) : Nibble := op.extractLsb' 12 4

/-- `X` = op[11:8] (R81). -/
def fieldX (op : Word) : RegIdx := (op.extractLsb' 8 4).toFin

/-- `Y` = op[7:4] (R81). -/
def fieldY (op : Word) : RegIdx := (op.extractLsb' 4 4).toFin

/-- `N` = op[3:0] (R81). -/
def fieldN (op : Word) : Nibble := op.extractLsb' 0 4

/-- `NN` = op[7:0] (R81). -/
def fieldNN (op : Word) : Byte := op.extractLsb' 0 8

/-- `NNN` = op[11:0] (R81). -/
def fieldNNN (op : Word) : Addr := op.extractLsb' 0 12

/-! ## Decode -/

/-- Why the decoder answers no instruction. The one reason is an opcode of the unknown space (R85). It is not an error: the
cycle logs it and goes on (`40_cycle.md` R104). -/
inductive DecodeReject where
  | unknownOpcode (op : Word)
deriving DecidableEq, Repr

/-- Family 0: `op[11:0]` against 0x0E0 and 0x0EE, and every other value is SYS (R83). -/
def decodeFamily0 (op : Word) : Instr :=
  if fieldNNN op = 0x0E0#12 then .cls
  else if fieldNNN op = 0x0EE#12 then .ret
  else .sys (fieldNNN op)

/-- Family 8, by `op[3:0]` (R83, R84 rows 11 to 19). -/
def decodeFamily8 (op : Word) : Except DecodeReject Instr :=
  match (fieldN op).toNat with
  | 0x0 => .ok (.ldReg (fieldX op) (fieldY op))
  | 0x1 => .ok (.orReg (fieldX op) (fieldY op))
  | 0x2 => .ok (.andReg (fieldX op) (fieldY op))
  | 0x3 => .ok (.xorReg (fieldX op) (fieldY op))
  | 0x4 => .ok (.addReg (fieldX op) (fieldY op))
  | 0x5 => .ok (.subReg (fieldX op) (fieldY op))
  | 0x6 => .ok (.shr (fieldX op) (fieldY op))
  | 0x7 => .ok (.subnReg (fieldX op) (fieldY op))
  | 0xE => .ok (.shl (fieldX op) (fieldY op))
  | _ => .error (.unknownOpcode op)

/-- Family E, by `op[7:0]` (R83, R84 rows 25 and 26). -/
def decodeFamilyE (op : Word) : Except DecodeReject Instr :=
  if fieldNN op = 0x9E#8 then .ok (.skp (fieldX op))
  else if fieldNN op = 0xA1#8 then .ok (.sknp (fieldX op))
  else .error (.unknownOpcode op)

/-- Family F, by `op[7:0]` (R83, R84 rows 27 to 35). -/
def decodeFamilyF (op : Word) : Except DecodeReject Instr :=
  if fieldNN op = 0x07#8 then .ok (.ldVxDt (fieldX op))
  else if fieldNN op = 0x0A#8 then .ok (.ldVxK (fieldX op))
  else if fieldNN op = 0x15#8 then .ok (.ldDtVx (fieldX op))
  else if fieldNN op = 0x18#8 then .ok (.ldStVx (fieldX op))
  else if fieldNN op = 0x1E#8 then .ok (.addI (fieldX op))
  else if fieldNN op = 0x29#8 then .ok (.ldF (fieldX op))
  else if fieldNN op = 0x33#8 then .ok (.ldB (fieldX op))
  else if fieldNN op = 0x55#8 then .ok (.storeRegs (fieldX op))
  else if fieldNN op = 0x65#8 then .ok (.loadRegs (fieldX op))
  else .error (.unknownOpcode op)

/-- The decoder: the family by `op[15:12]`, then its sub-fields (R83). Families 5 and 9 need a low nibble of 0 (R85). -/
def decode (op : Word) : Except DecodeReject Instr :=
  match (fieldF op).toNat with
  | 0x0 => .ok (decodeFamily0 op)
  | 0x1 => .ok (.jp (fieldNNN op))
  | 0x2 => .ok (.call (fieldNNN op))
  | 0x3 => .ok (.seImm (fieldX op) (fieldNN op))
  | 0x4 => .ok (.sneImm (fieldX op) (fieldNN op))
  | 0x5 => if fieldN op = 0x0#4 then .ok (.seReg (fieldX op) (fieldY op)) else .error (.unknownOpcode op)
  | 0x6 => .ok (.ldImm (fieldX op) (fieldNN op))
  | 0x7 => .ok (.addImm (fieldX op) (fieldNN op))
  | 0x8 => decodeFamily8 op
  | 0x9 => if fieldN op = 0x0#4 then .ok (.sneReg (fieldX op) (fieldY op)) else .error (.unknownOpcode op)
  | 0xA => .ok (.ldI (fieldNNN op))
  | 0xB => .ok (.jpV0 (fieldNNN op))
  | 0xC => .ok (.rnd (fieldX op) (fieldNN op))
  | 0xD => .ok (.drw (fieldX op) (fieldY op) (fieldN op))
  | 0xE => decodeFamilyE op
  | _ => decodeFamilyF op

/-- The decoder on bytes: the first byte is the high one, exactly two bytes are consumed, and the rest is handed back (R80).
`none` where there are fewer than two bytes. -/
def decodeBytes : List Byte → Option (Except DecodeReject Instr × List Byte)
  | hi :: lo :: rest => some (decode (opcodeOfBytes hi lo), rest)
  | [] | [_] => none

/-- What the decoder reads from a table row's word: bit 0 of `w` is the least significant bit of the opcode, which is laid
out high byte first. Every bit above `nbits` is 0, and the instruction is 16 bits long. -/
def decodeTableWord (nbits w : Nat) : Option Instr :=
  let op := BitVec.ofNat 16 (w % 2 ^ nbits)
  match decodeBytes [opcodeHigh op, opcodeLow op] with
  | some (.ok i, _) => some i
  | some (.error _, _) => none
  | none => none

/-! ## Encode -/

/-- A register number as the 4-bit field that names it (R81). -/
abbrev nibbleOf (x : RegIdx) : Nibble := BitVec.ofFin x

/-- The layout `F X Y N` (R81). -/
def packXYN (f : Nibble) (x y : RegIdx) (n : Nibble) : Word := f ++ nibbleOf x ++ nibbleOf y ++ n

/-- The layout `F X NN` (R81). -/
def packXNN (f : Nibble) (x : RegIdx) (nn : Byte) : Word := f ++ nibbleOf x ++ nn

/-- The layout `F NNN` (R81). -/
def packNNN (f : Nibble) (nnn : Addr) : Word := f ++ nnn

/-- The opcode of an instruction, row by row of R84. -/
def encode : Instr → Word
  | .sys nnn => packNNN 0x0 nnn
  | .cls => 0x00E0#16
  | .ret => 0x00EE#16
  | .jp nnn => packNNN 0x1 nnn
  | .call nnn => packNNN 0x2 nnn
  | .seImm x nn => packXNN 0x3 x nn
  | .sneImm x nn => packXNN 0x4 x nn
  | .seReg x y => packXYN 0x5 x y 0x0
  | .ldImm x nn => packXNN 0x6 x nn
  | .addImm x nn => packXNN 0x7 x nn
  | .ldReg x y => packXYN 0x8 x y 0x0
  | .orReg x y => packXYN 0x8 x y 0x1
  | .andReg x y => packXYN 0x8 x y 0x2
  | .xorReg x y => packXYN 0x8 x y 0x3
  | .addReg x y => packXYN 0x8 x y 0x4
  | .subReg x y => packXYN 0x8 x y 0x5
  | .shr x y => packXYN 0x8 x y 0x6
  | .subnReg x y => packXYN 0x8 x y 0x7
  | .shl x y => packXYN 0x8 x y 0xE
  | .sneReg x y => packXYN 0x9 x y 0x0
  | .ldI nnn => packNNN 0xA nnn
  | .jpV0 nnn => packNNN 0xB nnn
  | .rnd x nn => packXNN 0xC x nn
  | .drw x y n => packXYN 0xD x y n
  | .skp x => packXNN 0xE x 0x9E
  | .sknp x => packXNN 0xE x 0xA1
  | .ldVxDt x => packXNN 0xF x 0x07
  | .ldVxK x => packXNN 0xF x 0x0A
  | .ldDtVx x => packXNN 0xF x 0x15
  | .ldStVx x => packXNN 0xF x 0x18
  | .addI x => packXNN 0xF x 0x1E
  | .ldF x => packXNN 0xF x 0x29
  | .ldB x => packXNN 0xF x 0x33
  | .storeRegs x => packXNN 0xF x 0x55
  | .loadRegs x => packXNN 0xF x 0x65

/-! ## The opcode map -/

/-- The `match` and `mask` columns of one row of R84: an opcode selects the row when `op & mask = match`. -/
structure OpcodeRow where
  value : Word
  mask  : Word
deriving DecidableEq, Repr

/-- An opcode has the fixed bits of a row. -/
def OpcodeRow.selects (r : OpcodeRow) (op : Word) : Bool := op &&& r.mask == r.value

/-- The row of R84 an instruction belongs to. -/
def Instr.row : Instr → OpcodeRow
  | .sys _ => ⟨0x0000, 0xF000⟩
  | .cls => ⟨0x00E0, 0xFFFF⟩
  | .ret => ⟨0x00EE, 0xFFFF⟩
  | .jp _ => ⟨0x1000, 0xF000⟩
  | .call _ => ⟨0x2000, 0xF000⟩
  | .seImm _ _ => ⟨0x3000, 0xF000⟩
  | .sneImm _ _ => ⟨0x4000, 0xF000⟩
  | .seReg _ _ => ⟨0x5000, 0xF00F⟩
  | .ldImm _ _ => ⟨0x6000, 0xF000⟩
  | .addImm _ _ => ⟨0x7000, 0xF000⟩
  | .ldReg _ _ => ⟨0x8000, 0xF00F⟩
  | .orReg _ _ => ⟨0x8001, 0xF00F⟩
  | .andReg _ _ => ⟨0x8002, 0xF00F⟩
  | .xorReg _ _ => ⟨0x8003, 0xF00F⟩
  | .addReg _ _ => ⟨0x8004, 0xF00F⟩
  | .subReg _ _ => ⟨0x8005, 0xF00F⟩
  | .shr _ _ => ⟨0x8006, 0xF00F⟩
  | .subnReg _ _ => ⟨0x8007, 0xF00F⟩
  | .shl _ _ => ⟨0x800E, 0xF00F⟩
  | .sneReg _ _ => ⟨0x9000, 0xF00F⟩
  | .ldI _ => ⟨0xA000, 0xF000⟩
  | .jpV0 _ => ⟨0xB000, 0xF000⟩
  | .rnd _ _ => ⟨0xC000, 0xF000⟩
  | .drw _ _ _ => ⟨0xD000, 0xF000⟩
  | .skp _ => ⟨0xE09E, 0xF0FF⟩
  | .sknp _ => ⟨0xE0A1, 0xF0FF⟩
  | .ldVxDt _ => ⟨0xF007, 0xF0FF⟩
  | .ldVxK _ => ⟨0xF00A, 0xF0FF⟩
  | .ldDtVx _ => ⟨0xF015, 0xF0FF⟩
  | .ldStVx _ => ⟨0xF018, 0xF0FF⟩
  | .addI _ => ⟨0xF01E, 0xF0FF⟩
  | .ldF _ => ⟨0xF029, 0xF0FF⟩
  | .ldB _ => ⟨0xF033, 0xF0FF⟩
  | .storeRegs _ => ⟨0xF055, 0xF0FF⟩
  | .loadRegs _ => ⟨0xF065, 0xF0FF⟩

/-- One instruction of each row of R84, in the table's order. -/
def sampleOfEachRow : List Instr := List.flatten [
  [.sys 0, .cls, .ret, .jp 0, .call 0, .seImm 0 0, .sneImm 0 0, .seReg 0 0, .ldImm 0 0, .addImm 0 0],
  [.ldReg 0 0, .orReg 0 0, .andReg 0 0, .xorReg 0 0, .addReg 0 0, .subReg 0 0, .shr 0 0, .subnReg 0 0, .shl 0 0],
  [.sneReg 0 0, .ldI 0, .jpV0 0, .rnd 0 0, .drw 0 0 0, .skp 0, .sknp 0],
  [.ldVxDt 0, .ldVxK 0, .ldDtVx 0, .ldStVx 0, .addI 0, .ldF 0, .ldB 0, .storeRegs 0, .loadRegs 0]]

/-- The match and mask columns of R84, in the table's order. -/
def opcodeMap : List OpcodeRow := sampleOfEachRow.map Instr.row

end Sys2Proof
end

