-- ==== Sys2Proof/Config.lean ====
section
/-! DEFINITION. What is fixed for one machine instance, and the model's free values (spec `00_scope.md` R8). -/

namespace Sys2Proof

/-- The 80 bytes of the glyph table, in address order (R8 `FONT`, `10_state.md` R31). -/
abbrev Font := Vector Byte 80

/-- The two meanings the spec allows FX0A (R8 `FX0A_POLICY`, `45_keypad_timers.md` R192). -/
inductive Fx0aPolicy where
  | wait
  | emptyBody
deriving DecidableEq, Repr, Inhabited

/-- The named parameters of R8. They are set when an instance is constructed and no step changes them, so a statement
about every state is a statement about every choice of them. -/
structure Config where
  /-- `ETI660`: program origin and workspace start 0x600 (true) or 0x200 (false) (R3, R8). -/
  eti660     : Bool
  /-- `FONT`: the bytes `Initialize` leaves at 0x050. -/
  font       : Font
  /-- `FX0A_POLICY`. -/
  fx0aPolicy : Fx0aPolicy
deriving DecidableEq, Repr, Inhabited

/-- FREE VALUE. `Config.rnd k` is the random byte the host supplies to the cycle numbered `k` (`10_state.md` R51,
`93_implementation_defined.md` U9 "any value"). It has no body, so nothing can be proved of its values. Log entry 4. -/
opaque Config.rnd : Nat → Byte

end Sys2Proof
end

