-- ==== Sys2Proof/Machine/Parameters.lean ====
section
/-! DEFINITION. The fixed parameters of the hardware (`00_scope.md` R7), the values derived from `ETI660` (R8) and the default
of `FONT` (`10_state.md` R31). -/

namespace Sys2Proof.Machine

/-- `MEM_SIZE`: addresses 0x000 to 0xFFF (R7). -/
def memSize : Nat := 4096

/-- `FONT_BASE` (R7). -/
def fontBase : Nat := 0x050

/-- `GLYPH_SIZE` (R7). -/
def glyphSize : Nat := 5

/-- `WS_START`, the program origin and the first address of the workspace (R8). -/
def wsStart (c : Config) : Nat := if c.eti660 then 0x600 else 0x200

/-- `WS_END`, the last address of the workspace (R8). -/
def wsEnd : Nat := 0xFFF

/-- The default glyphs, digit by digit (R31; the spec took them from general knowledge, its G1). Log entry 2. -/
def defaultGlyphs : List (List Byte) :=
  [[0xF0, 0x90, 0x90, 0x90, 0xF0], [0x20, 0x60, 0x20, 0x20, 0x70]] ++
  [[0xF0, 0x10, 0xF0, 0x80, 0xF0], [0xF0, 0x10, 0xF0, 0x10, 0xF0]] ++
  [[0x90, 0x90, 0xF0, 0x10, 0x10], [0xF0, 0x80, 0xF0, 0x10, 0xF0]] ++
  [[0xF0, 0x80, 0xF0, 0x90, 0xF0], [0xF0, 0x10, 0x20, 0x40, 0x40]] ++
  [[0xF0, 0x90, 0xF0, 0x90, 0xF0], [0xF0, 0x90, 0xF0, 0x10, 0xF0]] ++
  [[0xF0, 0x90, 0xF0, 0x90, 0x90], [0xE0, 0x90, 0xE0, 0x90, 0xE0]] ++
  [[0xF0, 0x80, 0x80, 0x80, 0xF0], [0xE0, 0x90, 0x90, 0x90, 0xE0]] ++
  [[0xF0, 0x80, 0xF0, 0x80, 0xF0], [0xF0, 0x80, 0xF0, 0x80, 0x80]]

/-- The default of `FONT` (R8, R31). -/
def defaultFont : Font := ⟨defaultGlyphs.flatten.toArray, by decide⟩

/-- The parameters of the instance `State.reset` describes: `FONT` and `FX0A_POLICY` at the spec's defaults (R8), and
`ETI660` false, which is the model's choice because R8 gives it no default. Log entries 1, 2 and 3. -/
def defaultConfig : Config := { eti660 := false, font := defaultFont, fx0aPolicy := .wait }

end Sys2Proof.Machine
end

