-- ==== Sys2Proof/Machine/State.lean ====
section
/-! DEFINITION. The machine state (`10_state.md` R20 to R36), the outputs of a cycle (R54 to R56), the ways a cycle can fail
(`60_exceptions.md` R200 to R207) and the state after `Initialize` (R40). -/

namespace Sys2Proof.Machine

/-- Why DXYN drew nothing (`44_display.md` R181). -/
inductive SkipReason where
  | zeroHeight
  | offScreen
deriving DecidableEq, Repr

/-- The log events a cycle can emit (R56). -/
inductive LogEvent where
  /-- An opcode of the unknown space (R104). -/
  | unknownOpcode (op : Word)
  /-- A 0NNN other than 00E0 and 00EE (R120). -/
  | machineCodeCall (op : Word)
  /-- BNNN with NNN + V0 above 0xFFF (R132). -/
  | jumpWrap (op : Word) (sum : Nat)
  /-- FX1E with I + VX above 0xFFFF (R161). -/
  | indexWrap (sum : Nat)
  /-- A skipped DXYN (R181). -/
  | drawSkipped (reason : SkipReason)
deriving DecidableEq, Repr

/-- What the last cycle put out: its three signals (R55) and its log events, oldest first (R56). These are outputs and no part
of the machine: no rule reads them, and every cycle starts them afresh. Log entry 6. -/
structure Outputs where
  delayExpired : Bool
  soundExpired : Bool
  beep         : Bool
  log          : List LogEvent
deriving DecidableEq, Repr, Inhabited

/-- No signal asserted and nothing logged. -/
def Outputs.quiet : Outputs := { delayExpired := false, soundExpired := false, beep := false, log := [] }

/-- The bytes that differ from the image `Initialize` leaves (see `Memory.unlisted`), as address and byte, addresses rising. -/
abbrev Memory := List Host.Cell

/-- The 64 x 32 framebuffer (R33), held as its 32 rows. Column 0 is the most significant bit of its row, so a row read from
the top bit down is the slice `FB_flat[y*64 .. y*64+63]`. Log entry 10. -/
abbrev Screen := Vector (BitVec 64) 32

/-- The machine (R20), the parameters of its instance (R8) and the model's own fields (log entries 4, 6 and 7). -/
structure State where
  /-- The instance's parameters; `ETI660` is R20's `config`. No step changes them. -/
  config      : Config
  /-- The model's own: `Initialize` has run. A cycle before it is refused (R40, R235). -/
  initialized : Bool
  /-- `mem` (R30). -/
  mem         : Memory
  /-- V0 to VF (R22). -/
  v           : Vector Byte 16
  /-- `I` (R24). -/
  i           : Word
  /-- `PC` (R25). -/
  pc          : Word
  /-- `SP` (R26). -/
  sp          : Byte
  /-- `Stack` (R27). -/
  stack       : Vector Word 16
  /-- `DT` (R28). -/
  dt          : Byte
  /-- `ST` (R28). -/
  st          : Byte
  /-- `Key`: true is pressed (R35). -/
  key         : Vector Bool 16
  /-- `FB` (R33). -/
  fb          : Screen
  /-- The model's own: the outputs of the last cycle (R55, R56). -/
  out         : Outputs
  /-- The model's own: the number of the current cycle's draw, `Config.rnd drawCount` being its random byte (R51). -/
  drawCount   : Nat
deriving DecidableEq, Repr, Inhabited

/-- FREE VALUE. The fields of an instance before its first `Initialize` (R40: "Before the first `Initialize` the state is
unspecified"). It has no body. Log entry 7. -/
opaque State.unspecified : State

/-- The error kinds a cycle can return (`60_exceptions.md` R200), each with its info value (R201) and, as `left`, the whole
state the error leaves behind (R202). `Fault.resume` gives that state back, so that the host's three choices after an error
(R208) are all there. Stopping the run at the first error is R110's second end of a run, and safe. Log entry 5. -/
inductive Fault where
  /-- Raised by the fetch (R102), 00EE (R121), 2NNN (R123), FX33 (R163), FX55 (R164), FX65 (R165) and DXYN (R182); `addr` is
  the base address of the access or the rejected target. Safe: the spec says the cycle returns this error. -/
  | segmentationFault (addr : Word) (left : State)
  /-- Raised by 2NNN with SP = 16 (R123). Safe: the spec says so. -/
  | subroutineStackOverflow (left : State)
  /-- Raised by 00EE with SP = 0 (R121). Safe: the spec says so. -/
  | subroutineStackEmpty (left : State)
  /-- Raised by EX9E and EXA1 with VX above 15 (R190, R191); `index` is VX. Safe: the spec says so. -/
  | indexOutOfBounds (index : Byte) (left : State)
  /-- Raised by nothing: R206 keeps the kind in the error type, and no step produces it. -/
  | unexpectedError (left : State)
deriving DecidableEq, Repr

/-- Why the model gives a step no meaning. -/
inductive Refusal where
  /-- Raised by an arm of exec for an instruction that has no meaning yet. No arm raises it in this model. Safe. -/
  | notModelled (mnemonic : String)
  /-- Raised by a cycle before the first `Initialize` (R40, R235 row 1: "a model refuses `Cycle` before it"). Safe. -/
  | notInitialized
  /-- Raised by 2NNN and 00EE where SP is above 16, a value outside R26's legal range, for which the spec gives no effect and
  which no run reaches. Safe. Log entry 8. -/
  | illegalStackPointer
deriving DecidableEq, Repr

/-- The three outcomes of a meaning. -/
abbrev Result := Host.Outcome State Fault Refusal

/-- Every field at its value after `Initialize` (R40, R230), for an instance with parameters `c`. Nothing is listed in memory,
because an unlisted address reads as the image `Initialize` leaves. The model's draw counter is carried over by the caller. -/
def State.afterInitialize (c : Config) (drawCount : Nat) : State :=
  { config := c
    initialized := true
    mem := []
    v := Vector.replicate 16 0
    i := 0
    pc := BitVec.ofNat 16 (wsStart c)
    sp := 0
    stack := Vector.replicate 16 0
    dt := 0
    st := 0
    key := Vector.replicate 16 false
    fb := Vector.replicate 32 0
    out := Outputs.quiet
    drawCount := drawCount }

/-- The machine right after reset: R40 for the default instance. Its `ETI660` is the model's choice (log entry 1), and so are
the model's own fields (log entries 4, 6 and 7). -/
def State.reset : State := State.afterInitialize defaultConfig 0

end Sys2Proof.Machine
end

