-- ==== Sys2Proof/Machine/Ops.lean ====
section
/-! DEFINITION. The named operations over memory, registers, the stack, the framebuffer and the outputs
(`00_scope.md` R11, `20_memory.md`), and raising an error (`60_exceptions.md` R105, R207). -/

namespace Sys2Proof.Machine

/-! ## Memory -/

/-- What an address that is not listed reads as: the image `Initialize` leaves, the font at [0x050, 0x0A0) and zero elsewhere
(R30, R40). -/
def Memory.unlisted (font : Font) (a : Nat) : Byte :=
  if h : fontBase ≤ a ∧ a - fontBase < 80 then font[a - fontBase] else 0

/-- The byte at an address. -/
def Memory.read (font : Font) : Memory → Nat → Byte
  | [], a => Memory.unlisted font a
  | (k, b) :: m, a => if k = a then b else Memory.read font m a

/-- List a byte at its place in the rising order. -/
def Memory.put : Memory → Nat → Byte → Memory
  | [], a, b => [(a, b)]
  | (k, c) :: m, a, b =>
    if a < k then (a, b) :: (k, c) :: m
    else if a = k then (a, b) :: m
    else (k, c) :: Memory.put m a b

/-- Take an address off the list. -/
def Memory.drop (m : Memory) (a : Nat) : Memory := m.filter fun c => c.1 != a

/-- Write one byte, keeping the canonical form: a byte equal to what the unlisted address reads as is not listed. An address
outside memory does not exist and nothing is written there; every rule tests its addresses before it writes (R65). -/
def Memory.write (font : Font) (m : Memory) (a : Nat) (b : Byte) : Memory :=
  if memSize ≤ a then m
  else if b = Memory.unlisted font a then Memory.drop m a
  else Memory.put m a b

/-- The canonical form: addresses strictly rising, all of them in memory, and no byte equal to what its unlisted address reads
as. Equal memories are then equal lists. -/
abbrev Memory.wf (font : Font) (m : Memory) : Prop :=
  m.Pairwise (fun c d => c.1 < d.1) ∧ ∀ c ∈ m, c.1 < memSize ∧ c.2 ≠ Memory.unlisted font c.1

/-- `MemRead(a, 1)` (R11). -/
def State.readByte (s : State) (a : Nat) : Byte := Memory.read s.config.font s.mem a

/-- `MemWrite(a, 1, b)` (R11). -/
def State.writeByte (s : State) (a : Nat) (b : Byte) : State := { s with mem := Memory.write s.config.font s.mem a b }

/-- Write bytes at rising addresses from `a` on, the first byte first. -/
def State.writeBytes (s : State) (a : Nat) : List Byte → State
  | [] => s
  | b :: bs => (s.writeByte a b).writeBytes (a + 1) bs

/-- The `n` bytes from `a` on, in address order. -/
def State.readBytes (s : State) (a n : Nat) : List Byte := (List.range n).map fun k => s.readByte (a + k)

/-! ## Registers -/

/-- `V[x]` (R11). -/
def State.reg (s : State) (x : RegIdx) : Byte := s.v[x]

/-- `V[x] <- b` (R11). -/
def State.setReg (s : State) (x : RegIdx) (b : Byte) : State := { s with v := s.v.set x b }

/-- The result first and the flag second, so VF keeps the flag when it is also the destination (`42_alu.md` R152). -/
def State.setRegAndFlag (s : State) (x : RegIdx) (b flag : Byte) : State := (s.setReg x b).setReg regF flag

/-- Put a register file in place. -/
def State.setV (s : State) (v : Vector Byte 16) : State := { s with v := v }

/-- `I <- w`. -/
def State.setI (s : State) (w : Word) : State := { s with i := w }

/-- `PC <- w`. -/
def State.setPc (s : State) (w : Word) : State := { s with pc := w }

/-- `DT <- b`. -/
def State.setDt (s : State) (b : Byte) : State := { s with dt := b }

/-- `ST <- b`. -/
def State.setSt (s : State) (b : Byte) : State := { s with st := b }

/-- `V[k], V[k+1], ... <- bs`, in that order, for as many registers as there are. -/
def setRegsFrom (v : Vector Byte 16) (k : Nat) : List Byte → Vector Byte 16
  | [] => v
  | b :: bs => setRegsFrom (v.setIfInBounds k b) (k + 1) bs

/-- The values of `V[0]` to `V[x]`, in register order. -/
def State.regsUpTo (s : State) (x : RegIdx) : List Byte := s.v.toList.take (x.val + 1)

/-! ## The stack -/

/-- `Stack[SP] <- PC; SP <- SP + 1` (`41_control.md` R123), where `SP` names a slot. -/
def State.pushPc (s : State) (h : s.sp.toNat < 16) : State := { s with stack := s.stack.set s.sp.toNat s.pc, sp := s.sp + 1 }

/-- `SP <- SP - 1` (R121). -/
def State.decSp (s : State) : State := { s with sp := s.sp - 1 }

/-- `Stack[SP] <- 0` (R121). -/
def State.clearSlot (s : State) (h : s.sp.toNat < 16) : State := { s with stack := s.stack.set s.sp.toNat 0 }

/-! ## The framebuffer -/

/-- `FB[y][x]`: column `x` counts from the most significant bit of row `y` (R33). No pixel outside the screen is set. -/
def State.pixel (s : State) (x y : Nat) : Bool := (s.fb[y]?).elim false fun row => row.getMsbD x

/-- Put a screen in place. -/
def State.setFb (s : State) (fb : Screen) : State := { s with fb := fb }

/-! ## Outputs and errors -/

/-- `log L` (R11): a log event changes nothing but the output record. -/
def State.emit (s : State) (e : LogEvent) : State := { s with out := { s.out with log := s.out.log ++ [e] } }

/-- No signal is asserted. -/
def State.noSignal (s : State) : State :=
  { s with out := { s.out with delayExpired := false, soundExpired := false, beep := false } }

/-- `raise E(info)` (R11, R207): the cycle ends with the error, no state is saved and no address is gone to, no signal is
asserted, and every write made before it stays (R105, R202). -/
def raise (e : State → Fault) (s : State) : Result := .fault (e s.noSignal)

/-- The state an error left: what the host's next cycle starts from if it goes on (R208). -/
def Fault.resume : Fault → State
  | .segmentationFault _ left => left
  | .subroutineStackOverflow left => left
  | .subroutineStackEmpty left => left
  | .indexOutOfBounds _ left => left
  | .unexpectedError left => left

/-- The numeric code of an error kind (R200, rows 1 to 5). -/
def Fault.code : Fault → Nat
  | .segmentationFault _ _ => 1
  | .subroutineStackOverflow _ => 2
  | .subroutineStackEmpty _ => 3
  | .indexOutOfBounds _ _ => 4
  | .unexpectedError _ => 5

/-- The numeric code of a cycle's result: 0 is Ok and an error has its kind's code (R200, `10_state.md` R54). A refused cycle
has no result. -/
def resultCode : Result → Option Nat
  | .next _ => some 0
  | .fault f => some f.code
  | .refused _ => none

/-- The info value of an error, where its kind carries one (R201). -/
def Fault.info : Fault → Option Nat
  | .segmentationFault addr _ => some addr.toNat
  | .indexOutOfBounds index _ => some index.toNat
  | .subroutineStackOverflow _ => none
  | .subroutineStackEmpty _ => none
  | .unexpectedError _ => none

end Sys2Proof.Machine
end

