-- ==== Sys2Proof/Machine/Cycle.lean ====
section
/-! DEFINITION. What a cycle does around its instruction: the fetch, the unknown-opcode no-op and the timer tick
(`40_cycle.md`). -/

namespace Sys2Proof.Machine

/-- A cycle starts with no signal asserted, nothing logged (`10_state.md` R55, R56), and a fresh random byte (R51). The machine
itself does not change. -/
def State.beginCycle (s : State) : State := { s with out := Outputs.quiet, drawCount := s.drawCount + 1 }

/-- The fetch bound: the second byte of the opcode is outside memory (R102). -/
def State.fetchFaults (s : State) : Bool := decide (s.pc.toNat + 1 > 0xFFF)

/-- The two bytes at PC and PC + 1, the first one high (R100, R101). -/
def State.fetchOpcode (s : State) : Word := opcodeOfBytes (s.readByte s.pc.toNat) (s.readByte (s.pc.toNat + 1))

/-- `PC <- PC + 2`, before dispatch (R101). -/
def State.advancePc (s : State) : State := s.setPc (s.pc + 2)

/-- An unknown opcode: logged, and nothing changes (R104). -/
def execUnknown (op : Word) (s : State) : Result := .next (s.emit (.unknownOpcode op))

/-- A timer counts down by 1 and stops at 0 (R106). -/
def tickTimer (t : Byte) : Byte := if t.toNat > 0 then t - 1 else t

/-- The timer tick and its signals, which look at the values before it (R106, R107). -/
def State.tick (s : State) : State :=
  { s with
    dt := tickTimer s.dt
    st := tickTimer s.st
    out := { s.out with
      delayExpired := decide (s.dt = 1)
      soundExpired := decide (s.st = 1)
      beep := decide (s.st.toNat > 0) } }

/-- The tick runs after every dispatch that raised no error (R100, R105, R106). -/
def thenTick : Result → Result
  | .next s => .next s.tick
  | .fault f => .fault f
  | .refused r => .refused r

end Sys2Proof.Machine
end

