-- ==== Sys2Proof/Machine/Flags.lean ====
section
/-! DEFINITION. Every flag the engine computes (`42_alu.md` R146 to R150 and R153, `44_display.md` R184). A flag is 0 or 1 and
goes to VF. -/

namespace Sys2Proof.Machine

/-- A flag as the byte VF receives. -/
def flagByte (c : Bool) : Byte := if c then 1 else 0

/-- The carry out of bit 7 of an add (R146, R153). -/
def carryFlag (x y : Byte) : Byte := flagByte (decide (x.toNat + y.toNat > 255))

/-- 1 when a subtract does not borrow: `minuend >= subtrahend`, unsigned (R147, R149, R153). -/
def noBorrowFlag (minuend subtrahend : Byte) : Byte := flagByte (decide (minuend.toNat ≥ subtrahend.toNat))

/-- The bit a right shift moves out: bit 0 before the shift (R148). -/
def rightOutFlag (x : Byte) : Byte := flagByte (x.getLsbD 0)

/-- The bit a left shift moves out: bit 7 before the shift (R150). -/
def leftOutFlag (x : Byte) : Byte := flagByte (x.getLsbD 7)

/-- The collision of a draw (R184). -/
def collisionFlag (hit : Bool) : Byte := flagByte hit

end Sys2Proof.Machine
end

