-- ==== Sys2Proof/Machine/Alu.lean ====
section
/-! DEFINITION. The V-register file and ALU: 6XNN, 7XNN, 8XY0 to 8XY7, 8XYE and CXNN (`42_alu.md`). Operands are read before
any write (`40_cycle.md` R103). -/

namespace Sys2Proof.Machine

/-- `6XNN` (R140). -/
def execLdImm (x : RegIdx) (nn : Byte) (s : State) : Result := .next (s.setReg x nn)

/-- `7XNN`: no flag is written (R141). -/
def execAddImm (x : RegIdx) (nn : Byte) (s : State) : Result := .next (s.setReg x (s.reg x + nn))

/-- `8XY0` (R142). -/
def execLdReg (x y : RegIdx) (s : State) : Result := .next (s.setReg x (s.reg y))

/-- `8XY1`: no flag is written (R143). -/
def execOrReg (x y : RegIdx) (s : State) : Result := .next (s.setReg x (s.reg x ||| s.reg y))

/-- `8XY2`: no flag is written (R144). -/
def execAndReg (x y : RegIdx) (s : State) : Result := .next (s.setReg x (s.reg x &&& s.reg y))

/-- `8XY3`: no flag is written (R145). -/
def execXorReg (x y : RegIdx) (s : State) : Result := .next (s.setReg x (s.reg x ^^^ s.reg y))

/-- `8XY4` (R146). -/
def execAddReg (x y : RegIdx) (s : State) : Result :=
  .next (s.setRegAndFlag x (s.reg x + s.reg y) (carryFlag (s.reg x) (s.reg y)))

/-- `8XY5` (R147). -/
def execSubReg (x y : RegIdx) (s : State) : Result :=
  .next (s.setRegAndFlag x (s.reg x - s.reg y) (noBorrowFlag (s.reg x) (s.reg y)))

/-- `8XY6`: VX is shifted in place and VY is not read (R148). -/
def execShr (x _y : RegIdx) (s : State) : Result :=
  .next (s.setRegAndFlag x (s.reg x >>> 1) (rightOutFlag (s.reg x)))

/-- `8XY7` (R149). -/
def execSubnReg (x y : RegIdx) (s : State) : Result :=
  .next (s.setRegAndFlag x (s.reg y - s.reg x) (noBorrowFlag (s.reg y) (s.reg x)))

/-- `8XYE`: VX is shifted in place and VY is not read (R150). -/
def execShl (x _y : RegIdx) (s : State) : Result :=
  .next (s.setRegAndFlag x (s.reg x <<< 1) (leftOutFlag (s.reg x)))

/-- `CXNN` (R151): the cycle's random byte, a free value, masked by `NN`. -/
def execRnd (x : RegIdx) (nn : Byte) (s : State) : Result := .next (s.setReg x (Config.rnd s.drawCount &&& nn))

end Sys2Proof.Machine
end

