-- ==== Sys2Proof/Machine/Operands.lean ====
section
/-! DEFINITION. The operand forms of the instructions: immediates (`30_encoding.md` R82), the bounds tests on addresses and
targets (`20_memory.md` R65, R66), the skip (`41_control.md` R124), key indices, decimal digits, glyph addresses and sprite
rows. -/

namespace Sys2Proof.Machine

/-- `zext_16(NNN)` (R82). -/
def zextAddr (nnn : Addr) : Word := nnn.setWidth 16

/-- The workspace test of call and return targets: `WS_START <= a <= 0xFFF` for this instance (R66, R121, R123). -/
def State.inWorkspace (s : State) (a : Nat) : Bool := decide (wsStart s.config ≤ a ∧ a ≤ wsEnd)

/-- The span test of FX33, FX55 and FX65: `base + last <= 0xFFF`, computed exactly on all 16 bits of `I` (R65, R66). -/
def spanFits (base : Word) (last : Nat) : Bool := decide (base.toNat + last ≤ 0xFFF)

/-- The span test of DXYN: `I + 8*N <= 0x1000`, computed exactly (R66, R182). -/
def spriteSpanFits (base : Word) (n : Nibble) : Bool := decide (base.toNat + 8 * n.toNat ≤ 0x1000)

/-- A skip adds 2 to the post-fetch PC when its condition holds, and never raises an error (R124). -/
def State.skipIf (s : State) (c : Bool) : State := if c then s.setPc (s.pc + 2) else s

/-- The lowest pressed key, if any: `min { k | Key[k] }` (R192). -/
def State.lowestKey (s : State) : Option RegIdx := (List.finRange 16).find? fun k => s.key[k]

/-- The hundreds, tens and ones of a byte (`43_index_memory.md` R163). -/
def decimalDigits (b : Byte) : List Byte :=
  [BitVec.ofNat 8 (b.toNat / 100), BitVec.ofNat 8 (b.toNat / 10 % 10), BitVec.ofNat 8 (b.toNat % 10)]

/-- The address of the glyph for the low nibble of a byte: `0x050 + 5 * (x & 0xF)` (R162). -/
def glyphAddress (b : Byte) : Word := BitVec.ofNat 16 (fontBase + glyphSize * (b &&& 0x0F).toNat)

/-- One sprite byte placed on a screen row from column `cx` on, its bit 7 leftmost. Bits past column 63 fall off the right
(`44_display.md` R183). -/
def spriteRow (b : Byte) (cx : Nat) : BitVec 64 := (b ++ 0#56) >>> cx

end Sys2Proof.Machine
end

