-- ==== Sys2Proof/Machine/Control.lean ====
section
/-! DEFINITION. Control transfer: 0NNN, 00EE, 1NNN, 2NNN, 3XNN, 4XNN, 5XY0, 9XY0 and BNNN (`41_control.md`). In every meaning
`PC` is the post-fetch value (`40_cycle.md` R101). -/

namespace Sys2Proof.Machine

/-- `0NNN`: a logged no-op (R120). -/
def execSys (nnn : Addr) (s : State) : Result := .next (s.emit (.machineCodeCall (packNNN 0x0 nnn)))

/-- `00EE` (R121). The stack-empty test comes before the workspace test on the popped address (R203), and a rejected address
stays in its slot with SP already decremented. -/
def execRet (s : State) : Result :=
  if s.sp = 0 then raise .subroutineStackEmpty s
  else
    let t := s.decSp
    if h : t.sp.toNat < 16 then
      let a := t.stack[t.sp.toNat]
      if t.inWorkspace a.toNat then .next ((t.setPc a).clearSlot h)
      else raise (.segmentationFault a) t
    else .refused .illegalStackPointer

/-- `1NNN` (R122). The test against the memory size can never fail. -/
def execJp (nnn : Addr) (s : State) : Result :=
  if nnn.toNat ≥ memSize then raise (.segmentationFault (zextAddr nnn)) s
  else .next (s.setPc (zextAddr nnn))

/-- `2NNN` (R123). The workspace test comes before the stack-full test (R203). -/
def execCall (nnn : Addr) (s : State) : Result :=
  if s.inWorkspace nnn.toNat then
    if s.sp = 16 then raise .subroutineStackOverflow s
    else if h : s.sp.toNat < 16 then .next ((s.pushPc h).setPc (zextAddr nnn))
    else .refused .illegalStackPointer
  else raise (.segmentationFault (zextAddr nnn)) s

/-- `3XNN` (R125). -/
def execSeImm (x : RegIdx) (nn : Byte) (s : State) : Result := .next (s.skipIf (s.reg x == nn))

/-- `4XNN` (R126). -/
def execSneImm (x : RegIdx) (nn : Byte) (s : State) : Result := .next (s.skipIf (s.reg x != nn))

/-- `5XY0` (R127). -/
def execSeReg (x y : RegIdx) (s : State) : Result := .next (s.skipIf (s.reg x == s.reg y))

/-- `9XY0` (R128). -/
def execSneReg (x y : RegIdx) (s : State) : Result := .next (s.skipIf (s.reg x != s.reg y))

/-- `BNNN` (R132): `NNN + V0` modulo 2^12, logging a wrap. -/
def execJpV0 (nnn : Addr) (s : State) : Result :=
  let sum := nnn.toNat + (s.reg reg0).toNat
  let t := if sum > 0xFFF then s.emit (.jumpWrap (packNNN 0xB nnn) sum) else s
  .next (t.setPc (BitVec.ofNat 16 (sum % 0x1000)))

end Sys2Proof.Machine
end

