-- ==== Sys2Proof/Machine/Display.lean ====
section
/-! DEFINITION. The framebuffer writer: 00E0 and DXYN (`44_display.md`). -/

namespace Sys2Proof.Machine

/-- `00E0`: every pixel is 0 and VF is not written (R180). -/
def execCls (s : State) : Result := .next (s.setFb (Vector.replicate 32 0))

/-- The row loop of DXYN (R181, R183): XOR each sprite byte into its screen row, from row `y` down and no further than row
31, and note whether any pixel was set in both (R184). -/
def drawRows (cx : Nat) : List Byte → Nat → Screen → Bool → Screen × Bool
  | [], _, fb, hit => (fb, hit)
  | b :: bs, y, fb, hit =>
    if h : y < 32 then
      drawRows cx bs (y + 1) (fb.set y (fb[y] ^^^ spriteRow b cx)) (hit || (fb[y] &&& spriteRow b cx) != 0)
    else (fb, hit)

/-- `DXYN` (R181 to R184). The two skip tests come before the span test (R203), a skipped draw writes nothing, and VF is written
last. -/
def execDrw (x y : RegIdx) (n : Nibble) (s : State) : Result :=
  let cx := (s.reg x).toNat
  let cy := (s.reg y).toNat
  if n = 0 then .next (s.emit (.drawSkipped .zeroHeight))
  else if cx ≥ 64 ∨ cy ≥ 32 then .next (s.emit (.drawSkipped .offScreen))
  else if spriteSpanFits s.i n then
    let drawn := drawRows cx (s.readBytes s.i.toNat n.toNat) cy s.fb false
    .next ((s.setFb drawn.1).setReg regF (collisionFlag drawn.2))
  else raise (.segmentationFault s.i) s

end Sys2Proof.Machine
end

