-- ==== Sys2Proof/Machine/IndexMemory.lean ====
section
/-! DEFINITION. The index register and the memory transfers: ANNN, FX1E, FX29, FX33, FX55 and FX65 (`43_index_memory.md`). Every
bounds test runs before any access, so an error leaves memory and registers as they were. -/

namespace Sys2Proof.Machine

/-- `ANNN` (R160). -/
def execLdI (nnn : Addr) (s : State) : Result := .next (s.setI (zextAddr nnn))

/-- `FX1E` (R161): modulo 2^16, logging a wrap; VF is not written. -/
def execAddI (x : RegIdx) (s : State) : Result :=
  let sum := s.i.toNat + (s.reg x).toNat
  let t := if sum > 0xFFFF then s.emit (.indexWrap sum) else s
  .next (t.setI (BitVec.ofNat 16 sum))

/-- `FX29` (R162). -/
def execLdF (x : RegIdx) (s : State) : Result := .next (s.setI (glyphAddress (s.reg x)))

/-- `FX33` (R163). -/
def execLdB (x : RegIdx) (s : State) : Result :=
  if spanFits s.i 2 then .next (s.writeBytes s.i.toNat (decimalDigits (s.reg x)))
  else raise (.segmentationFault s.i) s

/-- `FX55` (R164). -/
def execStoreRegs (x : RegIdx) (s : State) : Result :=
  if spanFits s.i x.val then .next (s.writeBytes s.i.toNat (s.regsUpTo x))
  else raise (.segmentationFault s.i) s

/-- `FX65` (R165). -/
def execLoadRegs (x : RegIdx) (s : State) : Result :=
  if spanFits s.i x.val then .next (s.setV (setRegsFrom s.v 0 (s.readBytes s.i.toNat (x.val + 1))))
  else raise (.segmentationFault s.i) s

end Sys2Proof.Machine
end

