-- ==== Sys2Proof/Machine/KeypadTimers.lean ====
section
/-! DEFINITION. The keypad and timer instructions: EX9E, EXA1, FX0A, FX07, FX15 and FX18 (`45_keypad_timers.md`). -/

namespace Sys2Proof.Machine

/-- `EX9E` (R190). VX is not masked: above 15 it is an error. -/
def execSkp (x : RegIdx) (s : State) : Result :=
  if h : (s.reg x).toNat < 16 then .next (s.skipIf s.key[(s.reg x).toNat])
  else raise (.indexOutOfBounds (s.reg x)) s

/-- `EXA1` (R191). -/
def execSknp (x : RegIdx) (s : State) : Result :=
  if h : (s.reg x).toNat < 16 then .next (s.skipIf !s.key[(s.reg x).toNat])
  else raise (.indexOutOfBounds (s.reg x)) s

/-- `FX07`: DT before this cycle's tick (R193). -/
def execLdVxDt (x : RegIdx) (s : State) : Result := .next (s.setReg x s.dt)

/-- `FX0A` (R192), by the instance's policy: the lowest pressed key, or PC back by 2 to run this instruction again; or the
empty body. -/
def execLdVxK (x : RegIdx) (s : State) : Result :=
  match s.config.fx0aPolicy with
  | .wait =>
    match s.lowestKey with
    | some k => .next (s.setReg x (BitVec.ofNat 8 k.val))
    | none => .next (s.setPc (s.pc - 2))
  | .emptyBody => .next s

/-- `FX15` (R194). -/
def execLdDtVx (x : RegIdx) (s : State) : Result := .next (s.setDt (s.reg x))

/-- `FX18` (R195). -/
def execLdStVx (x : RegIdx) (s : State) : Result := .next (s.setSt (s.reg x))

end Sys2Proof.Machine
end

