-- ==== Sys2Proof/Machine/Step.lean ====
section
/-! DEFINITION. One step: the cycle (`40_cycle.md` R100). -/

namespace Sys2Proof.Machine

/-- Decode and execute exactly one instruction, or the unknown-opcode no-op (R103, R104). -/
def dispatch (op : Word) (s : State) : Host.Outcome State Fault Refusal :=
  match decode op with
  | .ok i => exec i s
  | .error (.unknownOpcode bad) => execUnknown bad s

/-- `Cycle` (R100): refused before the first `Initialize` (R40); a fetch past memory is an error that changes nothing (R102);
otherwise fetch, advance PC, execute, tick. -/
def step (s : State) : Host.Outcome State Fault Refusal :=
  if s.initialized = false then .refused .notInitialized
  else if s.fetchFaults then raise (.segmentationFault s.pc) s.beginCycle
  else thenTick (dispatch s.fetchOpcode s.beginCycle.advancePc)

/-- The instruction whose bits are `w`, stored high byte first where the next step fetches. Where the state could fetch nothing
(no `Initialize` yet, or PC past 0xFFE) it is also made one that can: initialized, with PC at the program origin. Log entry 12. -/
def State.withFetchWord (s : State) (nbits w : Nat) : State :=
  let op := BitVec.ofNat 16 (w % 2 ^ nbits)
  let t := { s with initialized := true, pc := if s.fetchFaults then BitVec.ofNat 16 (wsStart s.config) else s.pc }
  t.writeBytes t.pc.toNat [opcodeHigh op, opcodeLow op]

end Sys2Proof.Machine
end

