-- ==== Sys2Proof/Machine/HostOps.lean ====
section
/-! DEFINITION. The host's side of the block: constructing an instance, `Initialize`, `Load`, `SetKeys` and `ReadFramebuffer`
(`10_state.md` R50 to R53, `70_reset_and_hazards.md` R230 to R235), and a session of host actions with its sticky fault
record (`60_exceptions.md` R208, R209). Host actions run between cycles only (`20_memory.md` R69). -/

namespace Sys2Proof.Machine

/-- A new instance: its parameters are set and everything else is unspecified until `Initialize` (R40, R231, R233). -/
def State.construct (c : Config) : State := { State.unspecified with config := c, initialized := false }

/-- `Initialize` (R230), as `State.init`: every field of R40, with the instance's parameters unchanged (R231). -/
def State.init (s : State) : State := State.afterInitialize s.config s.drawCount

/-- Why `Load` answers no count (R232). -/
inductive LoadError where
  | readFailed
  | tooLarge
deriving DecidableEq, Repr

/-- `Load` (R232): the bytes go to the workspace in file order; an input that cannot be read (`none`) or does not fit is
rejected and nothing is written. -/
def State.load (s : State) : Option (List Byte) → Except LoadError (State × Nat)
  | none => .error .readFailed
  | some b =>
    if b.length > 0x1000 - wsStart s.config then .error .tooLarge
    else .ok (s.writeBytes (wsStart s.config) b, b.length)

/-- `SetKeys` (R52). -/
def State.setKeys (s : State) (k : Vector Bool 16) : State := { s with key := k }

/-- `ReadFramebuffer` (R53): `FB_flat`, row-major, each value 0 or 1. -/
def State.readFramebuffer (s : State) : Vector (BitVec 1) 2048 :=
  Vector.ofFn fun p => BitVec.ofBool (s.pixel (p.val % 64) (p.val / 64))

/-! ## A session -/

/-- What the host can do (R50, R235). `readFramebuffer` changes nothing. -/
inductive HostAction where
  | init
  | load (source : Option (List Byte))
  | setKeys (k : Vector Bool 16)
  | readFramebuffer
  | cycle
deriving DecidableEq, Repr

/-- A machine in its host's hands: the machine, and the first error any cycle returned, which nothing clears (R209). The
record is bookkeeping and no hardware state. -/
structure Session where
  machine    : State
  firstFault : Option Fault
deriving DecidableEq, Repr

/-- A session begins with a new instance (R233 step 1). -/
def Session.start (c : Config) : Session := { machine := State.construct c, firstFault := none }

/-- One cycle. After an error the session holds the state the error left, from which the host may go on (R208). -/
def Session.cycle (m : Session) : Except Refusal Session :=
  match step m.machine with
  | .next s => .ok { m with machine := s }
  | .fault f => .ok { machine := f.resume, firstFault := m.firstFault.or (some f) }
  | .refused r => .error r

/-- One host action. A rejected `Load` leaves the machine as it was. -/
def Session.act (m : Session) : HostAction → Except Refusal Session
  | .init => .ok { m with machine := m.machine.init }
  | .load source =>
    match m.machine.load source with
    | .ok (s, _) => .ok { m with machine := s }
    | .error _ => .ok m
  | .setKeys k => .ok { m with machine := m.machine.setKeys k }
  | .readFramebuffer => .ok m
  | .cycle => m.cycle

/-- A list of host actions in order, stopping at the first that is refused. -/
def Session.run (m : Session) : List HostAction → Except Refusal Session
  | [] => .ok m
  | a :: as =>
    match m.act a with
    | .ok m' => m'.run as
    | .error r => .error r

end Sys2Proof.Machine
end

