-- ==== Sys2Proof/Safety.lean ====
section
/-! DEFINITION. What a good state and a safe run are, in the terms the statements use. -/

namespace Sys2Proof.Machine

/-- The legal values the spec gives the machine's fields, whichever way a cycle ended: SP is 0 to 16 (`10_state.md` R26), PC is
at most 0x1002 (R25, R29), a stack slot holds at most 0x1000 (the largest PC a call can push, `41_control.md` R123), and
memory is in canonical form. -/
structure State.Legal (s : State) : Prop where
  sp_le    : s.sp.toNat ≤ 16
  pc_le    : s.pc.toNat ≤ 0x1002
  slots_le : ∀ k : Fin 16, s.stack[k].toNat ≤ 0x1000
  mem_wf   : Memory.wf s.config.font s.mem

/-- A slot at index SP or above holds 0 (R27), which is so until a return fails. -/
def State.UnusedSlotsClear (s : State) : Prop := ∀ k : Fin 16, s.sp.toNat ≤ k.val → s.stack[k] = 0

/-- Every byte of memory reads in `t` as it reads in `s`. -/
def State.ReadsSame (s t : State) : Prop := ∀ a, t.readByte a = s.readByte a

/-- A cycle from `s` can fetch: `Initialize` has run and both bytes of the opcode are in memory (R40, `40_cycle.md` R102). -/
def State.CanFetch (s : State) : Prop := s.initialized = true ∧ s.pc.toNat + 1 ≤ 0xFFF

/-- The state an instruction starts from: PC past the opcode, no output yet, this cycle's random byte drawn (`40_cycle.md` R101,
`10_state.md` R51, R55). -/
def State.fetched (s : State) : State :=
  { s with pc := s.pc + 2, out := Outputs.quiet, drawCount := s.drawCount + 1 }

/-- The opcode whose first byte stands at PC (`20_memory.md` R60). -/
def State.opcodeAtPc (s : State) : Word := s.readByte s.pc.toNat ++ s.readByte (s.pc.toNat + 1)

/-- A result with every state in it changed alike: the next state, or the state an error leaves. -/
def mapStates (f : State → State) : Result → Result
  | .next t => .next (f t)
  | .fault (.segmentationFault addr left) => .fault (.segmentationFault addr (f left))
  | .fault (.subroutineStackOverflow left) => .fault (.subroutineStackOverflow (f left))
  | .fault (.subroutineStackEmpty left) => .fault (.subroutineStackEmpty (f left))
  | .fault (.indexOutOfBounds index left) => .fault (.indexOutOfBounds index (f left))
  | .fault (.unexpectedError left) => .fault (.unexpectedError (f left))
  | .refused r => .refused r

/-- `n` cycles from `s` all return Ok (`40_cycle.md` R110, R209's premise "no error returned"). -/
def SafeFor (n : Nat) (s : State) : Prop := ∃ t, Sys2Proof.core.run n s = .next t

end Sys2Proof.Machine
end

