-- ==== Sys2Proof/Certificates/Slice0/Obligations.lean ====
section
/-! DEFINITION. The statements about the model, one `def Obligations.<Name> : Prop` each. In a statement about `exec`, `s` is the
state an instruction starts from, so `s.pc` is the post-fetch PC (`40_cycle.md` R101). -/

open Sys2Proof Sys2Proof.Machine

/-! ## Encoding -/

/-- R80, R83, R84 (derived): the bytes of every well-formed instruction decode to it, and exactly two bytes are consumed. -/
def Obligations.DecodeOfEncode : Prop :=
  ∀ (i : Instr) (rest : List Byte), i.wellFormed = true →
    decodeBytes (opcodeHigh (encode i) :: opcodeLow (encode i) :: rest) = some (.ok i, rest)

/-- R83, R84 (derived): an opcode that decodes is the encoding of what it decodes to, which is well formed. -/
def Obligations.EncodeOfDecode : Prop :=
  ∀ (op : Word) (i : Instr), decode op = .ok i → i.wellFormed = true ∧ encode i = op

/-- R84 (derived): the decoder answers an instruction of a row exactly for the opcodes that row selects, where SYS leaves 0x00E0
and 0x00EE to rows 2 and 3. -/
def Obligations.DecodeFollowsOpcodeMap : Prop :=
  ∀ (op : Word) (r : OpcodeRow), r ∈ opcodeMap → (r.value = 0x0000 → op ≠ 0x00E0 ∧ op ≠ 0x00EE) →
    (r.selects op = true ↔ ∃ i, decode op = .ok i ∧ i.row = r)

/-- R85 (derived; that 5XYn and 9XYn need n = 0 is the spec's decision D10): the opcodes the decoder refuses are the five listed
groups, they are the values no row selects, and the decoder refuses each by its own value. -/
def Obligations.UnknownOpcodesAreTheListedOnes : Prop :=
  ∀ op : Word,
    (decode op = .error (.unknownOpcode op) ↔
      (fieldF op = 0x5 ∧ fieldN op ≠ 0) ∨
      (fieldF op = 0x8 ∧ fieldN op ∈ [0x8, 0x9, 0xA, 0xB, 0xC, 0xD, 0xF]) ∨
      (fieldF op = 0x9 ∧ fieldN op ≠ 0) ∨
      (fieldF op = 0xE ∧ fieldNN op ∉ [0x9E, 0xA1]) ∨
      (fieldF op = 0xF ∧ fieldNN op ∉ [0x07, 0x0A, 0x15, 0x18, 0x1E, 0x29, 0x33, 0x55, 0x65])) ∧
    (decode op = .error (.unknownOpcode op) ↔ ∀ r ∈ opcodeMap, r.selects op = false) ∧
    (∀ e, decode op = .error e → e = .unknownOpcode op)

/-- R84 (derived): words written out from the spec's examples decode to the instructions they stand for. -/
def Obligations.SampleWordsDecode : Prop :=
  decode 0x00E0 = .ok .cls ∧ decode 0x2208 = .ok (.call 0x208) ∧ decode 0x6A2B = .ok (.ldImm 10 0x2B) ∧
  decode 0x8126 = .ok (.shr 1 2) ∧ decode 0xA400 = .ok (.ldI 0x400) ∧ decode 0xD125 = .ok (.drw 1 2 5) ∧
  decode 0xE29E = .ok (.skp 2) ∧ decode 0xF529 = .ok (.ldF 5) ∧ decode 0x5831 = .error (.unknownOpcode 0x5831)

/-! ## The cycle -/

/-- R100, R101, R103, R106 (derived): where the bytes at PC decode to `i`, a step is `i` executed on the state after the fetch, and
then the timer tick; an error or a refusal of `i` ends the step without a tick. -/
def Obligations.StepRunsTheDecodedInstruction : Prop :=
  ∀ (s : State) (i : Instr), s.CanFetch → decode s.opcodeAtPc = .ok i →
    (∀ t, exec i s.fetched = .next t → step s = .next t.tick) ∧
    (∀ f, exec i s.fetched = .fault f → step s = .fault f) ∧
    (∀ r, exec i s.fetched = .refused r → step s = .refused r)

/-- R106, R107 (derived; that `beep` looks at ST before the decrement is the spec's decision D13): the tick takes 1 from each
timer that is not 0, asserts the three signals by the values before it, and changes nothing else. -/
def Obligations.TickCountsDownAndSignals : Prop :=
  ∀ s : State,
    (s.dt.toNat > 0 → s.tick.dt.toNat = s.dt.toNat - 1) ∧ (s.dt.toNat = 0 → s.tick.dt.toNat = 0) ∧
    (s.st.toNat > 0 → s.tick.st.toNat = s.st.toNat - 1) ∧ (s.st.toNat = 0 → s.tick.st.toNat = 0) ∧
    (s.tick.out.delayExpired = true ↔ s.dt.toNat = 1) ∧ (s.tick.out.soundExpired = true ↔ s.st.toNat = 1) ∧
    (s.tick.out.beep = true ↔ s.st.toNat > 0) ∧ s.tick.out.log = s.out.log ∧
    s.tick = { s with dt := s.tick.dt, st := s.tick.st, out := s.tick.out }

/-- R104: an unknown opcode logs itself and changes no state but the post-fetch PC and the tick, and the cycle returns Ok. -/
def Obligations.UnknownOpcodeIsALoggedNoop : Prop :=
  ∀ s : State, s.CanFetch → decode s.opcodeAtPc = .error (.unknownOpcode s.opcodeAtPc) →
    ∃ t, step s = .next t.tick ∧
      t = { s.fetched with out := { Outputs.quiet with log := [.unknownOpcode s.opcodeAtPc] } } ∧ t.pc = s.pc + 2 ∧
      s.ReadsSame t

/-- `40_cycle.md` section 1, the fetch bound (derived: it is the spec's decision D4): at PC 0xFFF or above a step is a segmentation
fault at PC, and the state it leaves differs from `s` in the model's own fields only. -/
def Obligations.FetchPastMemoryFaults : Prop :=
  ∀ s : State, s.initialized = true → 0xFFF ≤ s.pc.toNat →
    ∃ left, step s = .fault (.segmentationFault s.pc left) ∧ left = { s with out := left.out, drawCount := left.drawCount } ∧
      left.out = Outputs.quiet

/-- `10_state.md` section 8 and `70_reset_and_hazards.md` section 4 (derived: it is the spec's decision D21): a cycle before the
first `Initialize` is refused, a new instance is such, and `Initialize` makes it one that can run. -/
def Obligations.CycleBeforeInitializeIsRefused : Prop :=
  (∀ s : State, s.initialized = false → step s = .refused .notInitialized) ∧
  (∀ c : Config, step (State.construct c) = .refused .notInitialized) ∧
  (∀ c : Config, (State.construct c).init.CanFetch)

/-- Derived from R26, R100, R103 and R200: from a legal state a cycle returns Ok or an error kind, never a refusal. -/
def Obligations.StepIsNeverRefused : Prop :=
  ∀ (s : State) (r : Refusal), s.Legal → s.initialized = true → step s ≠ .refused r

/-- Derived from `20_memory.md` section 6 (its fetch coherence is the spec's decision D18): bytes stored at PC are what the next
cycle fetches and runs. -/
def Obligations.StoredInstructionIsRunNext : Prop :=
  ∀ (s : State) (i : Instr), i.wellFormed = true → s.CanFetch →
    step (s.withFetchWord 16 (encode i).toNat) = thenTick (exec i (s.withFetchWord 16 (encode i).toNat).fetched)

/-! ## Control transfer -/

/-- R120: 0NNN logs the machine-code call and changes nothing. -/
def Obligations.SysIsALoggedNoop : Prop :=
  (∀ nnn : Addr, nnn ≠ 0x0E0 → nnn ≠ 0x0EE → decode (0x0#4 ++ nnn) = .ok (.sys nnn)) ∧
  ∀ (nnn : Addr) (s : State), ∃ t, exec (.sys nnn) s = .next t ∧
    t = { s with out := { s.out with log := s.out.log ++ [.machineCodeCall (0x0#4 ++ nnn)] } } ∧ s.ReadsSame t

/-- R121: 00EE pops. With SP = 0 it is a stack-empty error. With `k + 1` slots used it takes the address in slot `k`: inside the
workspace it goes there and clears the slot, and outside it is a segmentation fault with SP decremented and the slot kept. -/
def Obligations.ReturnPopsTheStack : Prop :=
  decode 0x00EE = .ok .ret ∧
  (∀ s : State, s.sp = 0 → exec .ret s = .fault (.subroutineStackEmpty s.noSignal)) ∧
  ∀ (s : State) (k : Fin 16), s.sp.toNat = k.val + 1 →
    (wsStart s.config ≤ s.stack[k].toNat → s.stack[k].toNat ≤ 0xFFF →
      ∃ t, exec .ret s = .next t ∧ t.sp.toNat = k.val ∧ (∀ j : Fin 16, t.stack[j] = if j = k then 0 else s.stack[j]) ∧
        t = { s with pc := s.stack[k], sp := t.sp, stack := t.stack } ∧ s.ReadsSame t) ∧
    (s.stack[k].toNat < wsStart s.config ∨ 0xFFF < s.stack[k].toNat →
      ∃ left, exec .ret s = .fault (.segmentationFault s.stack[k] left) ∧ left.sp.toNat = k.val ∧
        left = { s.noSignal with sp := left.sp })

/-- R122: 1NNN sets PC to NNN and raises nothing. -/
def Obligations.JumpSetsPc : Prop :=
  ∀ (nnn : Addr) (s : State), decode (0x1#4 ++ nnn) = .ok (.jp nnn) ∧
    ∃ t, exec (.jp nnn) s = .next t ∧ t.pc.toNat = nnn.toNat ∧ t = { s with pc := t.pc } ∧ s.ReadsSame t

/-- R123: 2NNN pushes the post-fetch PC and goes to NNN; a target below the workspace is a segmentation fault, tested before the
full stack, which is a stack overflow. -/
def Obligations.CallPushesAndJumps : Prop :=
  ∀ (nnn : Addr) (s : State), decode (0x2#4 ++ nnn) = .ok (.call nnn) ∧
    (wsStart s.config ≤ nnn.toNat → s.sp.toNat < 16 →
      ∃ t, exec (.call nnn) s = .next t ∧ t.pc.toNat = nnn.toNat ∧ t.sp.toNat = s.sp.toNat + 1 ∧
        (∀ j : Fin 16, t.stack[j] = if j.val = s.sp.toNat then s.pc else s.stack[j]) ∧
        t = { s with pc := t.pc, sp := t.sp, stack := t.stack } ∧ s.ReadsSame t) ∧
    (nnn.toNat < wsStart s.config →
      exec (.call nnn) s = .fault (.segmentationFault (nnn.setWidth 16) s.noSignal)) ∧
    (wsStart s.config ≤ nnn.toNat → s.sp.toNat = 16 → exec (.call nnn) s = .fault (.subroutineStackOverflow s.noSignal))

/-- The model's choice (log entry 8): with SP above 16, which R26 calls no legal value, 00EE and a 2NNN into the workspace are
refused by name. -/
def Obligations.IllegalStackPointerIsRefused : Prop :=
  ∀ s : State, 16 < s.sp.toNat →
    exec .ret s = .refused .illegalStackPointer ∧
    ∀ nnn : Addr, wsStart s.config ≤ nnn.toNat → exec (.call nnn) s = .refused .illegalStackPointer

/-- R125, R126: 3XNN and 4XNN add 2 to PC when VX is, or is not, NN, and change nothing else. -/
def Obligations.SkipOnImmediate : Prop :=
  ∀ (x : RegIdx) (nn : Byte) (s : State),
    decode (0x3#4 ++ nibbleOf x ++ nn) = .ok (.seImm x nn) ∧ decode (0x4#4 ++ nibbleOf x ++ nn) = .ok (.sneImm x nn) ∧
    (∃ t, exec (.seImm x nn) s = .next t ∧ t = { s with pc := if s.reg x = nn then s.pc + 2 else s.pc } ∧ s.ReadsSame t) ∧
    (∃ t, exec (.sneImm x nn) s = .next t ∧ t = { s with pc := if s.reg x = nn then s.pc else s.pc + 2 } ∧ s.ReadsSame t)

/-- R127, R128: 5XY0 and 9XY0 add 2 to PC when VX is, or is not, VY, and change nothing else. -/
def Obligations.SkipOnRegister : Prop :=
  ∀ (x y : RegIdx) (s : State),
    decode (0x5#4 ++ nibbleOf x ++ nibbleOf y ++ 0x0#4) = .ok (.seReg x y) ∧
    decode (0x9#4 ++ nibbleOf x ++ nibbleOf y ++ 0x0#4) = .ok (.sneReg x y) ∧
    (∃ t, exec (.seReg x y) s = .next t ∧ t = { s with pc := if s.reg x = s.reg y then s.pc + 2 else s.pc } ∧ s.ReadsSame t) ∧
    (∃ t, exec (.sneReg x y) s = .next t ∧ t = { s with pc := if s.reg x = s.reg y then s.pc else s.pc + 2 } ∧ s.ReadsSame t)

/-- R132: BNNN goes to NNN + V0 modulo 0x1000, whatever its bits 11:8, and logs a sum above 0xFFF. -/
def Obligations.ComputedJumpWraps : Prop :=
  ∀ (nnn : Addr) (s : State), decode (0xB#4 ++ nnn) = .ok (.jpV0 nnn) ∧
    ∃ t, exec (.jpV0 nnn) s = .next t ∧ t.pc.toNat = (nnn.toNat + (s.reg 0).toNat) % 0x1000 ∧
      t.out.log = s.out.log ++
        (if nnn.toNat + (s.reg 0).toNat > 0xFFF then [.jumpWrap (0xB#4 ++ nnn) (nnn.toNat + (s.reg 0).toNat)] else []) ∧
      t = { s with pc := t.pc, out := { s.out with log := t.out.log } } ∧ s.ReadsSame t

/-- R131 (derived): from any later state with the stack, SP and parameters a call left, the matching return goes back to the
post-fetch PC of the call, gives SP its value back and leaves the slot 0. -/
def Obligations.ReturnUndoesCall : Prop :=
  ∀ (nnn : Addr) (s t u : State), wsStart s.config ≤ s.pc.toNat → s.pc.toNat ≤ 0xFFF →
    exec (.call nnn) s = .next t → u.stack = t.stack → u.sp = t.sp → u.config = t.config →
    ∃ w, exec .ret u = .next w ∧ w.pc = s.pc ∧ w.sp = s.sp ∧
      ∀ j : Fin 16, w.stack[j] = if j.val = s.sp.toNat then 0 else s.stack[j]

/-! ## The V registers -/

/-- R140, R141, R142: 6XNN, 7XNN and 8XY0 write VX and nothing else; 7XNN records no carry. -/
def Obligations.LoadsAndImmediateAdd : Prop :=
  ∀ (x y : RegIdx) (nn : Byte) (s : State),
    decode (0x6#4 ++ nibbleOf x ++ nn) = .ok (.ldImm x nn) ∧ decode (0x7#4 ++ nibbleOf x ++ nn) = .ok (.addImm x nn) ∧
    decode (0x8#4 ++ nibbleOf x ++ nibbleOf y ++ 0x0#4) = .ok (.ldReg x y) ∧
    (∃ t, exec (.ldImm x nn) s = .next t ∧ t.reg x = nn ∧ (∀ k, k ≠ x → t.reg k = s.reg k) ∧
      t = { s with v := t.v } ∧ s.ReadsSame t) ∧
    (∃ t, exec (.addImm x nn) s = .next t ∧ (t.reg x).toNat = ((s.reg x).toNat + nn.toNat) % 256 ∧
      (∀ k, k ≠ x → t.reg k = s.reg k) ∧ t = { s with v := t.v } ∧ s.ReadsSame t) ∧
    (∃ t, exec (.ldReg x y) s = .next t ∧ t.reg x = s.reg y ∧ (∀ k, k ≠ x → t.reg k = s.reg k) ∧
      t = { s with v := t.v } ∧ s.ReadsSame t)

/-- `42_alu.md` section 3 (derived; that VF is left alone is the spec's decision D9): 8XY1, 8XY2 and 8XY3 write VX bit by bit and
nothing else, VF included. -/
def Obligations.LogicLeavesVfAlone : Prop :=
  ∀ (x y : RegIdx) (s : State),
    (∃ t, exec (.orReg x y) s = .next t ∧ (∀ b, (t.reg x).getLsbD b = ((s.reg x).getLsbD b || (s.reg y).getLsbD b)) ∧
      (∀ k, k ≠ x → t.reg k = s.reg k) ∧ t = { s with v := t.v } ∧ s.ReadsSame t) ∧
    (∃ t, exec (.andReg x y) s = .next t ∧ (∀ b, (t.reg x).getLsbD b = ((s.reg x).getLsbD b && (s.reg y).getLsbD b)) ∧
      (∀ k, k ≠ x → t.reg k = s.reg k) ∧ t = { s with v := t.v } ∧ s.ReadsSame t) ∧
    (∃ t, exec (.xorReg x y) s = .next t ∧ (∀ b, (t.reg x).getLsbD b = ((s.reg x).getLsbD b ^^ (s.reg y).getLsbD b)) ∧
      (∀ k, k ≠ x → t.reg k = s.reg k) ∧ t = { s with v := t.v } ∧ s.ReadsSame t)

/-- `42_alu.md` sections 1 and 3 (derived; that VF keeps the flag when X = F is the spec's decision D7): 8XY4 adds modulo 256 and VF
is the carry. -/
def Obligations.AddWritesCarry : Prop :=
  ∀ (x y : RegIdx) (s : State), ∃ t, exec (.addReg x y) s = .next t ∧
    (x ≠ regF → (t.reg x).toNat = ((s.reg x).toNat + (s.reg y).toNat) % 256) ∧
    (t.reg regF).toNat = (if (s.reg x).toNat + (s.reg y).toNat > 255 then 1 else 0) ∧
    (∀ k, k ≠ x → k ≠ regF → t.reg k = s.reg k) ∧ t = { s with v := t.v } ∧ s.ReadsSame t

/-- `42_alu.md` sections 1 and 3 (derived; the flag when X = F is the spec's decision D7): 8XY5 is VX - VY and 8XY7 is VY - VX, modulo
256, and VF is 1 exactly when the subtraction does not borrow. -/
def Obligations.SubtractWritesNoBorrow : Prop :=
  ∀ (x y : RegIdx) (s : State),
    (∃ t, exec (.subReg x y) s = .next t ∧
      (x ≠ regF → (t.reg x).toNat = (256 + (s.reg x).toNat - (s.reg y).toNat) % 256) ∧
      (t.reg regF).toNat = (if (s.reg x).toNat ≥ (s.reg y).toNat then 1 else 0) ∧
      (∀ k, k ≠ x → k ≠ regF → t.reg k = s.reg k) ∧ t = { s with v := t.v } ∧ s.ReadsSame t) ∧
    (∃ t, exec (.subnReg x y) s = .next t ∧
      (x ≠ regF → (t.reg x).toNat = (256 + (s.reg y).toNat - (s.reg x).toNat) % 256) ∧
      (t.reg regF).toNat = (if (s.reg y).toNat ≥ (s.reg x).toNat then 1 else 0) ∧
      (∀ k, k ≠ x → k ≠ regF → t.reg k = s.reg k) ∧ t = { s with v := t.v } ∧ s.ReadsSame t)

/-- `42_alu.md` sections 1 and 3 (derived; shifting VX with VY unread is the spec's decision D8, and the flag when X = F its D7):
8XY6 halves VX and 8XYE doubles it modulo 256, and VF is the bit moved out. -/
def Obligations.ShiftsMoveByOne : Prop :=
  ∀ (x y : RegIdx) (s : State),
    (∃ t, exec (.shr x y) s = .next t ∧ (x ≠ regF → (t.reg x).toNat = (s.reg x).toNat / 2) ∧
      (t.reg regF).toNat = (s.reg x).toNat % 2 ∧
      (∀ k, k ≠ x → k ≠ regF → t.reg k = s.reg k) ∧ t = { s with v := t.v } ∧ s.ReadsSame t) ∧
    (∃ t, exec (.shl x y) s = .next t ∧ (x ≠ regF → (t.reg x).toNat = 2 * (s.reg x).toNat % 256) ∧
      (t.reg regF).toNat = (s.reg x).toNat / 128 ∧
      (∀ k, k ≠ x → k ≠ regF → t.reg k = s.reg k) ∧ t = { s with v := t.v } ∧ s.ReadsSame t)

/-- `42_alu.md` section 4 (derived; the random byte as a free draw is the spec's decision D14 and the model's log entry 4): CXNN
writes the cycle's random byte, masked by NN, to VX and nothing else. -/
def Obligations.RandomByteIsMasked : Prop :=
  ∀ (x : RegIdx) (nn : Byte) (s : State), ∃ t, exec (.rnd x nn) s = .next t ∧
    (∀ b, (t.reg x).getLsbD b = ((Config.rnd s.drawCount).getLsbD b && nn.getLsbD b)) ∧
    (∀ k, k ≠ x → t.reg k = s.reg k) ∧ t = { s with v := t.v } ∧ s.ReadsSame t

/-! ## The index register and memory -/

/-- R160, R162: ANNN sets I to NNN and FX29 to the glyph of VX's low nibble; nothing else changes. -/
def Obligations.IndexRegisterLoads : Prop :=
  ∀ (nnn : Addr) (x : RegIdx) (s : State),
    decode (0xA#4 ++ nnn) = .ok (.ldI nnn) ∧ decode (0xF#4 ++ nibbleOf x ++ 0x29#8) = .ok (.ldF x) ∧
    (∃ t, exec (.ldI nnn) s = .next t ∧ t.i.toNat = nnn.toNat ∧ t = { s with i := t.i } ∧ s.ReadsSame t) ∧
    (∃ t, exec (.ldF x) s = .next t ∧ t.i.toNat = 0x050 + 5 * ((s.reg x).toNat % 16) ∧ t = { s with i := t.i } ∧ s.ReadsSame t)

/-- R161: FX1E adds VX to I modulo 2^16, logs a sum above 0xFFFF, and does not write VF. -/
def Obligations.IndexAddWraps : Prop :=
  ∀ (x : RegIdx) (s : State), decode (0xF#4 ++ nibbleOf x ++ 0x1E#8) = .ok (.addI x) ∧
    ∃ t, exec (.addI x) s = .next t ∧ t.i.toNat = (s.i.toNat + (s.reg x).toNat) % 0x10000 ∧
      t.out.log = s.out.log ++
        (if s.i.toNat + (s.reg x).toNat > 0xFFFF then [.indexWrap (s.i.toNat + (s.reg x).toNat)] else []) ∧
      t = { s with i := t.i, out := { s.out with log := t.out.log } } ∧ s.ReadsSame t

/-- R163: FX33 stores the hundreds, tens and ones of VX at I, I + 1 and I + 2, and no other byte changes; where I + 2 is past
memory it is a segmentation fault at I and nothing is written. -/
def Obligations.DecimalDigitsAreStored : Prop :=
  ∀ (x : RegIdx) (s : State), decode (0xF#4 ++ nibbleOf x ++ 0x33#8) = .ok (.ldB x) ∧
    (s.i.toNat + 2 ≤ 0xFFF →
      ∃ t, exec (.ldB x) s = .next t ∧ (t.readByte s.i.toNat).toNat = (s.reg x).toNat / 100 ∧
        (t.readByte (s.i.toNat + 1)).toNat = (s.reg x).toNat / 10 % 10 ∧
        (t.readByte (s.i.toNat + 2)).toNat = (s.reg x).toNat % 10 ∧
        (∀ a, a < s.i.toNat ∨ s.i.toNat + 2 < a → t.readByte a = s.readByte a) ∧ t = { s with mem := t.mem }) ∧
    (s.i.toNat + 2 > 0xFFF → exec (.ldB x) s = .fault (.segmentationFault s.i s.noSignal))

/-- `43_index_memory.md` section 2 (derived; that the test comes before any write is the spec's decision D24): FX55 stores V0 to VX at
I to I + X, and no other byte, nor I, changes; where the span is past memory it is a segmentation fault with nothing written. -/
def Obligations.RegistersAreStored : Prop :=
  ∀ (x : RegIdx) (s : State),
    (s.i.toNat + x.val ≤ 0xFFF →
      ∃ t, exec (.storeRegs x) s = .next t ∧ (∀ k : RegIdx, k ≤ x → t.readByte (s.i.toNat + k.val) = s.reg k) ∧
        (∀ a, a < s.i.toNat ∨ s.i.toNat + x.val < a → t.readByte a = s.readByte a) ∧ t = { s with mem := t.mem }) ∧
    (s.i.toNat + x.val > 0xFFF → exec (.storeRegs x) s = .fault (.segmentationFault s.i s.noSignal))

/-- `43_index_memory.md` section 2 (derived; that the test comes before any write is the spec's decision D24): FX65 loads V0 to VX from
I to I + X, and no other register, nor I, changes; where the span is past memory it is a segmentation fault with no register
written. -/
def Obligations.RegistersAreLoaded : Prop :=
  ∀ (x : RegIdx) (s : State),
    (s.i.toNat + x.val ≤ 0xFFF →
      ∃ t, exec (.loadRegs x) s = .next t ∧
        (∀ k : RegIdx, t.reg k = if k ≤ x then s.readByte (s.i.toNat + k.val) else s.reg k) ∧
        t = { s with v := t.v } ∧ s.ReadsSame t) ∧
    (s.i.toNat + x.val > 0xFFF → exec (.loadRegs x) s = .fault (.segmentationFault s.i s.noSignal))

/-- Derived from `95_test_vectors.md` L1-5: after FX55, an FX65 with the same X, run from any state with the same memory, I and
parameters, gives V0 to VX the values that were stored. -/
def Obligations.StoreThenLoadRestoresRegisters : Prop :=
  ∀ (x : RegIdx) (s t u : State), exec (.storeRegs x) s = .next t → u.mem = t.mem → u.i = t.i → u.config = t.config →
    ∃ w, exec (.loadRegs x) u = .next w ∧ (∀ k : RegIdx, k ≤ x → w.reg k = s.reg k) ∧ ∀ k : RegIdx, x < k → w.reg k = u.reg k

/-- Derived from `20_memory.md` section 6 (its decision D17): a byte read is the byte last written there, and a write leaves every
other byte alone. -/
def Obligations.ReadGivesLastWrite : Prop :=
  ∀ (s : State) (a : Nat) (b : Byte) (k : Nat), a ≤ 0xFFF →
    (s.writeByte a b).readByte k = if k = a then b else s.readByte k

/-! ## The display -/

/-- R180: 00E0 makes every pixel 0, as the host reads them, and changes nothing else. -/
def Obligations.ClearMakesEveryPixelZero : Prop :=
  decode 0x00E0 = .ok .cls ∧
  ∀ s : State, ∃ t, exec .cls s = .next t ∧ (∀ p : Fin 2048, t.readFramebuffer[p] = 0#1) ∧ t = { s with fb := t.fb } ∧
    s.ReadsSame t

/-- R183, R184: a draw that is not skipped and passes its span test replaces each pixel of the clipped rectangle by its XOR with
the sprite's bit, most significant bit leftmost, touches no other pixel, and sets VF to 1 exactly when some pixel went from set to
unset; every other register and all of memory stay. -/
def Obligations.DrawXorsTheClippedSprite : Prop :=
  ∀ (x y : RegIdx) (n : Nibble) (s : State), n ≠ 0 → (s.reg x).toNat < 64 → (s.reg y).toNat < 32 →
    s.i.toNat + 8 * n.toNat ≤ 0x1000 →
    ∃ t, exec (.drw x y n) s = .next t ∧
      (∀ px py, px < 64 → py < 32 →
        ((s.reg x).toNat ≤ px ∧ px < (s.reg x).toNat + 8 ∧ (s.reg y).toNat ≤ py ∧ py < (s.reg y).toNat + n.toNat →
          t.pixel px py = (s.pixel px py ^^
            (s.readByte (s.i.toNat + (py - (s.reg y).toNat))).getLsbD (7 - (px - (s.reg x).toNat)))) ∧
        (¬ ((s.reg x).toNat ≤ px ∧ px < (s.reg x).toNat + 8 ∧ (s.reg y).toNat ≤ py ∧ py < (s.reg y).toNat + n.toNat) →
          t.pixel px py = s.pixel px py)) ∧
      ((∃ px py, px < 64 ∧ py < 32 ∧ s.pixel px py = true ∧ t.pixel px py = false) → t.reg regF = 1) ∧
      ((¬ ∃ px py, px < 64 ∧ py < 32 ∧ s.pixel px py = true ∧ t.pixel px py = false) → t.reg regF = 0) ∧
      (∀ k, k ≠ regF → t.reg k = s.reg k) ∧ t = { s with fb := t.fb, v := t.v } ∧ s.ReadsSame t

/-- `44_display.md` section 2 (derived; the order of the two skip tests is the spec's decision D30): a draw of no rows, or from a
point off the screen, changes nothing but the log, whatever I is. -/
def Obligations.SkippedDrawOnlyLogs : Prop :=
  ∀ (x y : RegIdx) (n : Nibble) (s : State),
    (n = 0 → ∃ t, exec (.drw x y n) s = .next t ∧
      t = { s with out := { s.out with log := s.out.log ++ [.drawSkipped .zeroHeight] } } ∧ s.ReadsSame t) ∧
    (n ≠ 0 → 64 ≤ (s.reg x).toNat ∨ 32 ≤ (s.reg y).toNat → ∃ t, exec (.drw x y n) s = .next t ∧
      t = { s with out := { s.out with log := s.out.log ++ [.drawSkipped .offScreen] } } ∧ s.ReadsSame t)

/-- `44_display.md` section 2, the span test (derived; testing 8*N bytes is the spec's decision D26): a draw that is not skipped and
whose span passes the top of memory is a segmentation fault at I with nothing drawn. -/
def Obligations.DrawPastMemoryFaults : Prop :=
  ∀ (x y : RegIdx) (n : Nibble) (s : State), n ≠ 0 → (s.reg x).toNat < 64 → (s.reg y).toNat < 32 →
    s.i.toNat + 8 * n.toNat > 0x1000 → exec (.drw x y n) s = .fault (.segmentationFault s.i s.noSignal)

/-- Derived from `44_display.md` section 2: the same draw twice, from the same registers, puts every pixel back, and a pixel the
second draw unsets is one the sprite set over an unset pixel (see log entry 13). -/
def Obligations.DrawingTwiceRestoresTheScreen : Prop :=
  ∀ (x y : RegIdx) (n : Nibble) (s t : State), x ≠ regF → y ≠ regF → n ≠ 0 → (s.reg x).toNat < 64 → (s.reg y).toNat < 32 →
    exec (.drw x y n) s = .next t →
    ∃ u, exec (.drw x y n) t = .next u ∧ (∀ px py, px < 64 → py < 32 → u.pixel px py = s.pixel px py) ∧
      (u.reg regF = 1 ↔ ∃ px py, px < 64 ∧ py < 32 ∧ s.pixel px py = false ∧ t.pixel px py = true)

/-! ## The keypad and the timers -/

/-- `45_keypad_timers.md` section 1 (derived; the error for VX above 15 is the spec's decision D11): EX9E and EXA1 add 2 to PC when the
key VX names is, or is not, pressed; VX above 15 is an index error. -/
def Obligations.SkipOnKey : Prop :=
  ∀ (x : RegIdx) (s : State),
    (∀ k : Fin 16, (s.reg x).toNat = k.val →
      (∃ t, exec (.skp x) s = .next t ∧ t = { s with pc := if s.key[k] = true then s.pc + 2 else s.pc } ∧ s.ReadsSame t) ∧
      (∃ t, exec (.sknp x) s = .next t ∧ t = { s with pc := if s.key[k] = true then s.pc else s.pc + 2 } ∧ s.ReadsSame t)) ∧
    ((s.reg x).toNat > 15 →
      exec (.skp x) s = .fault (.indexOutOfBounds (s.reg x) s.noSignal) ∧
      exec (.sknp x) s = .fault (.indexOutOfBounds (s.reg x) s.noSignal))

/-- `45_keypad_timers.md` section 2 (derived; both policies are the spec's decision D12, and `wait` is its default): FX0A writes the
lowest pressed key to VX, or with no key pressed takes PC back by 2; under the empty-body policy it does nothing. -/
def Obligations.KeyWaitFollowsItsPolicy : Prop :=
  ∀ (x : RegIdx) (s : State),
    (s.config.fx0aPolicy = .wait → (∀ k : Fin 16, s.key[k] = false) →
      ∃ t, exec (.ldVxK x) s = .next t ∧ t = { s with pc := s.pc - 2 } ∧ s.ReadsSame t) ∧
    (s.config.fx0aPolicy = .wait → ∀ k : Fin 16, s.key[k] = true → (∀ j : Fin 16, j < k → s.key[j] = false) →
      ∃ t, exec (.ldVxK x) s = .next t ∧ (t.reg x).toNat = k.val ∧ (∀ r, r ≠ x → t.reg r = s.reg r) ∧
        t = { s with v := t.v } ∧ s.ReadsSame t) ∧
    (s.config.fx0aPolicy = .emptyBody → ∃ t, exec (.ldVxK x) s = .next t ∧ t = s ∧ s.ReadsSame t)

/-- R193: FX07 copies DT to VX before the tick of its own cycle, which then takes 1 from DT. -/
def Obligations.DelayTimerIsReadBeforeTheTick : Prop :=
  ∀ (x : RegIdx) (s : State), decode (0xF#4 ++ nibbleOf x ++ 0x07#8) = .ok (.ldVxDt x) ∧
    ∃ t, exec (.ldVxDt x) s = .next t ∧ t.reg x = s.dt ∧ (∀ k, k ≠ x → t.reg k = s.reg k) ∧
      t = { s with v := t.v } ∧ s.ReadsSame t ∧ t.tick.reg x = s.dt ∧ t.tick.dt.toNat = s.dt.toNat - 1

/-- `45_keypad_timers.md` section 3 (derived from R194, R195 and R106): FX15 and FX18 copy VX to DT and to ST and change nothing
else. -/
def Obligations.TimersAreSetFromVx : Prop :=
  ∀ (x : RegIdx) (s : State),
    decode (0xF#4 ++ nibbleOf x ++ 0x15#8) = .ok (.ldDtVx x) ∧ decode (0xF#4 ++ nibbleOf x ++ 0x18#8) = .ok (.ldStVx x) ∧
    (∃ t, exec (.ldDtVx x) s = .next t ∧ t = { s with dt := s.reg x } ∧ s.ReadsSame t) ∧
    (∃ t, exec (.ldStVx x) s = .next t ∧ t = { s with st := s.reg x } ∧ s.ReadsSame t)

/-- R106, R194, R195, R214 (derived): over a whole cycle that returns Ok each timer goes down by 1 to no less than 0, from the value
FX15 or FX18 gives it in that cycle, and from the old value under every other opcode. -/
def Obligations.TimersAtTheEndOfACycle : Prop :=
  ∀ s t : State, step s = .next t →
    (∀ x, decode s.opcodeAtPc = .ok (.ldDtVx x) → t.dt.toNat = (s.reg x).toNat - 1) ∧
    ((∀ x, decode s.opcodeAtPc ≠ .ok (.ldDtVx x)) → t.dt.toNat = s.dt.toNat - 1) ∧
    (∀ x, decode s.opcodeAtPc = .ok (.ldStVx x) → t.st.toNat = (s.reg x).toNat - 1) ∧
    ((∀ x, decode s.opcodeAtPc ≠ .ok (.ldStVx x)) → t.st.toNat = s.st.toNat - 1)

/-! ## The whole machine -/

/-- R25, R26, R27, R29 (derived): a cycle keeps the legal values of SP, PC, the stack slots and memory, whether it returns Ok or an
error. -/
def Obligations.StepKeepsStateLegal : Prop :=
  ∀ s : State, s.Legal → (∀ t, step s = .next t → t.Legal) ∧ (∀ f, step s = .fault f → f.resume.Legal)

/-- R40 (derived; `ETI660` false in `State.reset` is the model's choice, log entry 1): the state after reset is legal, its unused
slots are clear and it can fetch, and so it is after `Initialize` from any state. -/
def Obligations.ResetIsLegal : Prop :=
  State.reset.Legal ∧ State.reset.UnusedSlotsClear ∧ State.reset.CanFetch ∧ State.reset.pc = 0x200 ∧
  ∀ s : State, s.init.Legal ∧ s.init.UnusedSlotsClear ∧ s.init.CanFetch

/-- R27 (derived): while no cycle returns an error, every slot at index SP or above holds 0. -/
def Obligations.StepKeepsUnusedSlotsClear : Prop :=
  ∀ s t : State, s.UnusedSlotsClear → step s = .next t → t.UnusedSlotsClear

/-- R202 with R105 and R206 (derived; that a failing cycle has no tick is the spec's decision D3): a cycle that returns an error
asserts no signal, ticks no timer and leaves all of the machine but PC and SP as it was. PC is past the opcode unless the fetch
itself failed, SP is one lower exactly when a return rejected its address, and the error is never `UnexpectedError`. -/
def Obligations.ErrorLeavesTheStatedState : Prop :=
  ∀ (s : State) (f : Fault), step s = .fault f →
    f.resume = { s with
      pc := if s.pc.toNat + 1 > 0xFFF then s.pc else s.pc + 2
      sp := if s.pc.toNat + 1 ≤ 0xFFF ∧ decode s.opcodeAtPc = .ok .ret ∧ s.sp ≠ 0 then s.sp - 1 else s.sp
      out := Outputs.quiet
      drawCount := s.drawCount + 1 } ∧
    ∀ left, f ≠ .unexpectedError left

/-- R63 (derived): only FX33 and FX55 change memory; every other instruction leaves every byte as it was. -/
def Obligations.OnlyStoresChangeMemory : Prop :=
  ∀ (i : Instr) (s t : State), (∀ x, i ≠ .ldB x) → (∀ x, i ≠ .storeRegs x) → exec i s = .next t →
    t.mem = s.mem ∧ s.ReadsSame t

/-- R34: only 00E0 and DXYN write the framebuffer, and only DXYN reads it: no other instruction's result depends on it. The host
reads it. -/
def Obligations.OnlyDrawingTouchesTheScreen : Prop :=
  (∀ (i : Instr) (s t : State), i ≠ .cls → (∀ x y n, i ≠ .drw x y n) → exec i s = .next t → t.fb = s.fb) ∧
  (∀ (i : Instr) (s : State) (fb : Screen), i ≠ .cls → (∀ x y n, i ≠ .drw x y n) →
    exec i { s with fb := fb } = mapStates (fun t => { t with fb := fb }) (exec i s)) ∧
  (∀ (s : State) (fb : Screen), exec .cls { s with fb := fb } = exec .cls s) ∧
  (∀ (s : State) (p : Fin 2048), s.readFramebuffer[p] = BitVec.ofBool (s.pixel (p.val % 64) (p.val / 64)))

/-- R35: no step writes the keypad, only EX9E, EXA1 and FX0A read it (no other instruction's result depends on it), and the
host's `SetKeys` writes it. -/
def Obligations.KeypadIsWrittenByTheHostOnly : Prop :=
  (∀ s t : State, step s = .next t → t.key = s.key) ∧
  (∀ (s : State) (f : Fault), step s = .fault f → f.resume.key = s.key) ∧
  (∀ (i : Instr) (s : State) (k : Vector Bool 16), (∀ x, i ≠ .skp x) → (∀ x, i ≠ .sknp x) → (∀ x, i ≠ .ldVxK x) →
    exec i { s with key := k } = mapStates (fun t => { t with key := k }) (exec i s)) ∧
  (∀ (s : State) (k : Vector Bool 16) (j : Fin 16), (s.setKeys k).key[j] = k[j])

/-- R26: only 2NNN increments SP and only 00EE decrements it; SP stays at most 16, with SP = 16 no 2NNN completes, and with SP = 0
no 00EE does. -/
def Obligations.StackPointerRules : Prop :=
  (∀ (i : Instr) (s t : State), (∀ nnn, i ≠ .call nnn) → i ≠ .ret → exec i s = .next t → t.sp = s.sp) ∧
  (∀ (nnn : Addr) (s t : State), exec (.call nnn) s = .next t → t.sp.toNat = s.sp.toNat + 1 ∧ t.sp.toNat ≤ 16) ∧
  (∀ s t : State, exec .ret s = .next t → t.sp.toNat + 1 = s.sp.toNat) ∧
  (∀ (nnn : Addr) (s t : State), s.sp.toNat = 16 → exec (.call nnn) s ≠ .next t) ∧
  (∀ s t : State, s.sp.toNat = 0 → exec .ret s ≠ .next t)

/-- R23 (derived; the value VF keeps when it is also the destination is the spec's decision D7): VF changes only under the six
flag-writing instructions, or where it is the named destination, or in a block load of all registers. -/
def Obligations.OnlyFlagWritersChangeVf : Prop :=
  ∀ (i : Instr) (s t : State), exec i s = .next t → t.reg regF ≠ s.reg regF →
    (∃ x y, i = .addReg x y ∨ i = .subReg x y ∨ i = .shr x y ∨ i = .subnReg x y ∨ i = .shl x y) ∨
    (∃ x y n, i = .drw x y n) ∨
    (∃ nn, i = .ldImm regF nn ∨ i = .addImm regF nn ∨ i = .rnd regF nn) ∨
    (∃ y, i = .ldReg regF y ∨ i = .orReg regF y ∨ i = .andReg regF y ∨ i = .xorReg regF y) ∨
    i = .ldVxDt regF ∨ i = .ldVxK regF ∨ i = .loadRegs regF

/-- R3: ETI-660 mode is fixed for the life of an instance: no cycle, whatever it returns, and no host operation changes it (nor any
other parameter), and it moves the program origin and the workspace from 0x200 to 0x600. -/
def Obligations.ParametersAreFixed : Prop :=
  (∀ s t : State, step s = .next t → t.config = s.config) ∧
  (∀ (s : State) (f : Fault), step s = .fault f → f.resume.config = s.config) ∧
  (∀ (m m' : Session) (as : List HostAction), m.run as = .ok m' → m'.machine.config = m.machine.config) ∧
  (∀ s : State, s.init.pc.toNat = (if s.config.eti660 then 0x600 else 0x200)) ∧
  (∀ (s : State) (a : Nat), s.inWorkspace a = true ↔ (if s.config.eti660 then 0x600 else 0x200) ≤ a ∧ a ≤ 0xFFF)

/-- R28 (derived): no instruction reads ST: every instruction but FX18 does the same whatever ST holds, and hands it on. -/
def Obligations.SoundTimerIsNeverRead : Prop :=
  ∀ (i : Instr) (s : State) (b : Byte), (∀ x, i ≠ .ldStVx x) →
    exec i { s with st := b } = mapStates (fun t => { t with st := b }) (exec i s)

/-! ## The host -/

/-- R230: `Initialize` zeroes memory and writes the font at 0x050, zeroes the registers, the stack, the timers and the framebuffer,
releases every key, and puts PC at the program origin of the instance. -/
def Obligations.InitializeSetsEveryField : Prop :=
  ∀ s : State,
    (∀ k : Fin 80, s.init.readByte (0x050 + k.val) = s.config.font[k]) ∧
    (∀ a, a < 0x050 ∨ 0x0A0 ≤ a → s.init.readByte a = 0) ∧
    (∀ x : RegIdx, s.init.reg x = 0) ∧ (∀ k : Fin 16, s.init.key[k] = false) ∧
    (∀ k : Fin 16, s.init.stack[k] = 0) ∧
    s.init.i = 0 ∧ s.init.sp = 0 ∧ s.init.dt = 0 ∧ s.init.st = 0 ∧
    (∀ p : Fin 2048, s.init.readFramebuffer[p] = 0#1) ∧
    s.init.pc.toNat = (if s.config.eti660 then 0x600 else 0x200) ∧ s.init.config = s.config ∧
    s.init.out = Outputs.quiet

/-- `70_reset_and_hazards.md` section 2 (derived; that a rejected input writes nothing is the spec's decision D22): `Load` stores the
bytes from the workspace's first address on and changes nothing else, and rejects an input that is too long or cannot be read. -/
def Obligations.LoadStoresTheProgram : Prop :=
  ∀ (s : State) (b : List Byte),
    (b.length ≤ 0x1000 - wsStart s.config →
      ∃ t, s.load (some b) = .ok (t, b.length) ∧
        (∀ (k : Nat) (h : k < b.length), t.readByte (wsStart s.config + k) = b[k]) ∧
        (∀ a, a < wsStart s.config ∨ wsStart s.config + b.length ≤ a → t.readByte a = s.readByte a) ∧
        t = { s with mem := t.mem }) ∧
    (0x1000 - wsStart s.config < b.length → s.load (some b) = .error .tooLarge) ∧
    s.load none = .error .readFailed

/-- R53: the host reads the framebuffer in row-major order, element `y*64 + x` being the pixel at column x and row y, as 0 or 1. -/
def Obligations.FramebufferIsReadRowMajor : Prop :=
  ∀ (s : State) (x y : Nat) (hx : x < 64) (hy : y < 32),
    (s.readFramebuffer[y * 64 + x]).toNat = if s.pixel x y = true then 1 else 0

/-- `60_exceptions.md` sections 1 and 2 (derived; the sticky record and the host's three choices are the spec's decision D3): a session
records the first error any cycle returned, nothing clears it, and after an error the machine is in the state the error left. -/
def Obligations.SessionRecordsTheFirstError : Prop :=
  (∀ (m m' : Session) (as : List HostAction) (f : Fault), m.firstFault = some f → m.run as = .ok m' → m'.firstFault = some f) ∧
  (∀ (m : Session) (f : Fault), step m.machine = .fault f →
    ∃ m', m.act .cycle = .ok m' ∧ m'.machine = f.resume ∧ m'.firstFault = some (m.firstFault.getD f)) ∧
  (∀ (m : Session) (t : State), step m.machine = .next t →
    ∃ m', m.act .cycle = .ok m' ∧ m'.machine = t ∧ m'.firstFault = m.firstFault)

/-- `60_exceptions.md` section 1, R200 (derived; the numeric codes are the spec's decision D2): a cycle from a legal state on which
`Initialize` has run returns exactly one result code, 0 exactly when it is Ok, 1 to 4 by its error kind, and never 5. -/
def Obligations.CycleReturnsOneResultCode : Prop :=
  ∀ s : State, s.Legal → s.initialized = true →
    ∃ c, resultCode (step s) = some c ∧
      (c = 0 ↔ ∃ t, step s = .next t) ∧
      (c = 1 ↔ ∃ addr left, step s = .fault (.segmentationFault addr left)) ∧
      (c = 2 ↔ ∃ left, step s = .fault (.subroutineStackOverflow left)) ∧
      (c = 3 ↔ ∃ left, step s = .fault (.subroutineStackEmpty left)) ∧
      (c = 4 ↔ ∃ index left, step s = .fault (.indexOutOfBounds index left)) ∧ c ≤ 4
end

