-- ==== Sys2Proof/Laws/State.lean ====
section
/-! SUPPORT. The small lemmas of State: for each update, what it makes of each field. Every one is true by definition, so no
later proof unfolds a record update. -/

namespace Sys2Proof.Machine


/-! ### writeByte -/

@[simp] theorem State.writeByte_config (s : State) (a : Nat) (b : Byte) : (s.writeByte a b).config = s.config := rfl
@[simp] theorem State.writeByte_initialized (s : State) (a : Nat) (b : Byte) : (s.writeByte a b).initialized = s.initialized := rfl
@[simp] theorem State.writeByte_mem (s : State) (a : Nat) (b : Byte) : (s.writeByte a b).mem = Memory.write s.config.font s.mem a b := rfl
@[simp] theorem State.writeByte_v (s : State) (a : Nat) (b : Byte) : (s.writeByte a b).v = s.v := rfl
@[simp] theorem State.writeByte_i (s : State) (a : Nat) (b : Byte) : (s.writeByte a b).i = s.i := rfl
@[simp] theorem State.writeByte_pc (s : State) (a : Nat) (b : Byte) : (s.writeByte a b).pc = s.pc := rfl
@[simp] theorem State.writeByte_sp (s : State) (a : Nat) (b : Byte) : (s.writeByte a b).sp = s.sp := rfl
@[simp] theorem State.writeByte_stack (s : State) (a : Nat) (b : Byte) : (s.writeByte a b).stack = s.stack := rfl
@[simp] theorem State.writeByte_dt (s : State) (a : Nat) (b : Byte) : (s.writeByte a b).dt = s.dt := rfl
@[simp] theorem State.writeByte_st (s : State) (a : Nat) (b : Byte) : (s.writeByte a b).st = s.st := rfl
@[simp] theorem State.writeByte_key (s : State) (a : Nat) (b : Byte) : (s.writeByte a b).key = s.key := rfl
@[simp] theorem State.writeByte_fb (s : State) (a : Nat) (b : Byte) : (s.writeByte a b).fb = s.fb := rfl
@[simp] theorem State.writeByte_out (s : State) (a : Nat) (b : Byte) : (s.writeByte a b).out = s.out := rfl
@[simp] theorem State.writeByte_drawCount (s : State) (a : Nat) (b : Byte) : (s.writeByte a b).drawCount = s.drawCount := rfl
@[simp] theorem State.writeByte_reg (s : State) (a : Nat) (b : Byte) (k : RegIdx) : (s.writeByte a b).reg k = s.reg k := rfl
@[simp] theorem State.writeByte_pixel (s : State) (a : Nat) (b : Byte) (px py : Nat) : (s.writeByte a b).pixel px py = s.pixel px py := rfl

/-! ### setReg -/

@[simp] theorem State.setReg_config (s : State) (x : RegIdx) (b : Byte) : (s.setReg x b).config = s.config := rfl
@[simp] theorem State.setReg_initialized (s : State) (x : RegIdx) (b : Byte) : (s.setReg x b).initialized = s.initialized := rfl
@[simp] theorem State.setReg_mem (s : State) (x : RegIdx) (b : Byte) : (s.setReg x b).mem = s.mem := rfl
@[simp] theorem State.setReg_v (s : State) (x : RegIdx) (b : Byte) : (s.setReg x b).v = s.v.set x b := rfl
@[simp] theorem State.setReg_i (s : State) (x : RegIdx) (b : Byte) : (s.setReg x b).i = s.i := rfl
@[simp] theorem State.setReg_pc (s : State) (x : RegIdx) (b : Byte) : (s.setReg x b).pc = s.pc := rfl
@[simp] theorem State.setReg_sp (s : State) (x : RegIdx) (b : Byte) : (s.setReg x b).sp = s.sp := rfl
@[simp] theorem State.setReg_stack (s : State) (x : RegIdx) (b : Byte) : (s.setReg x b).stack = s.stack := rfl
@[simp] theorem State.setReg_dt (s : State) (x : RegIdx) (b : Byte) : (s.setReg x b).dt = s.dt := rfl
@[simp] theorem State.setReg_st (s : State) (x : RegIdx) (b : Byte) : (s.setReg x b).st = s.st := rfl
@[simp] theorem State.setReg_key (s : State) (x : RegIdx) (b : Byte) : (s.setReg x b).key = s.key := rfl
@[simp] theorem State.setReg_fb (s : State) (x : RegIdx) (b : Byte) : (s.setReg x b).fb = s.fb := rfl
@[simp] theorem State.setReg_out (s : State) (x : RegIdx) (b : Byte) : (s.setReg x b).out = s.out := rfl
@[simp] theorem State.setReg_drawCount (s : State) (x : RegIdx) (b : Byte) : (s.setReg x b).drawCount = s.drawCount := rfl
@[simp] theorem State.setReg_readByte (s : State) (x : RegIdx) (b : Byte) (k : Nat) : (s.setReg x b).readByte k = s.readByte k := rfl
@[simp] theorem State.setReg_pixel (s : State) (x : RegIdx) (b : Byte) (px py : Nat) : (s.setReg x b).pixel px py = s.pixel px py := rfl

/-! ### setRegAndFlag -/

@[simp] theorem State.setRegAndFlag_config (s : State) (x : RegIdx) (b flag : Byte) : (s.setRegAndFlag x b flag).config = s.config := rfl
@[simp] theorem State.setRegAndFlag_initialized (s : State) (x : RegIdx) (b flag : Byte) : (s.setRegAndFlag x b flag).initialized = s.initialized := rfl
@[simp] theorem State.setRegAndFlag_mem (s : State) (x : RegIdx) (b flag : Byte) : (s.setRegAndFlag x b flag).mem = s.mem := rfl
@[simp] theorem State.setRegAndFlag_v (s : State) (x : RegIdx) (b flag : Byte) : (s.setRegAndFlag x b flag).v = (s.v.set x b).set 15 flag := rfl
@[simp] theorem State.setRegAndFlag_i (s : State) (x : RegIdx) (b flag : Byte) : (s.setRegAndFlag x b flag).i = s.i := rfl
@[simp] theorem State.setRegAndFlag_pc (s : State) (x : RegIdx) (b flag : Byte) : (s.setRegAndFlag x b flag).pc = s.pc := rfl
@[simp] theorem State.setRegAndFlag_sp (s : State) (x : RegIdx) (b flag : Byte) : (s.setRegAndFlag x b flag).sp = s.sp := rfl
@[simp] theorem State.setRegAndFlag_stack (s : State) (x : RegIdx) (b flag : Byte) : (s.setRegAndFlag x b flag).stack = s.stack := rfl
@[simp] theorem State.setRegAndFlag_dt (s : State) (x : RegIdx) (b flag : Byte) : (s.setRegAndFlag x b flag).dt = s.dt := rfl
@[simp] theorem State.setRegAndFlag_st (s : State) (x : RegIdx) (b flag : Byte) : (s.setRegAndFlag x b flag).st = s.st := rfl
@[simp] theorem State.setRegAndFlag_key (s : State) (x : RegIdx) (b flag : Byte) : (s.setRegAndFlag x b flag).key = s.key := rfl
@[simp] theorem State.setRegAndFlag_fb (s : State) (x : RegIdx) (b flag : Byte) : (s.setRegAndFlag x b flag).fb = s.fb := rfl
@[simp] theorem State.setRegAndFlag_out (s : State) (x : RegIdx) (b flag : Byte) : (s.setRegAndFlag x b flag).out = s.out := rfl
@[simp] theorem State.setRegAndFlag_drawCount (s : State) (x : RegIdx) (b flag : Byte) : (s.setRegAndFlag x b flag).drawCount = s.drawCount := rfl
@[simp] theorem State.setRegAndFlag_readByte (s : State) (x : RegIdx) (b flag : Byte) (k : Nat) : (s.setRegAndFlag x b flag).readByte k = s.readByte k := rfl
@[simp] theorem State.setRegAndFlag_pixel (s : State) (x : RegIdx) (b flag : Byte) (px py : Nat) : (s.setRegAndFlag x b flag).pixel px py = s.pixel px py := rfl

/-! ### setV -/

@[simp] theorem State.setV_config (s : State) (w : Vector Byte 16) : (s.setV w).config = s.config := rfl
@[simp] theorem State.setV_initialized (s : State) (w : Vector Byte 16) : (s.setV w).initialized = s.initialized := rfl
@[simp] theorem State.setV_mem (s : State) (w : Vector Byte 16) : (s.setV w).mem = s.mem := rfl
@[simp] theorem State.setV_v (s : State) (w : Vector Byte 16) : (s.setV w).v = w := rfl
@[simp] theorem State.setV_i (s : State) (w : Vector Byte 16) : (s.setV w).i = s.i := rfl
@[simp] theorem State.setV_pc (s : State) (w : Vector Byte 16) : (s.setV w).pc = s.pc := rfl
@[simp] theorem State.setV_sp (s : State) (w : Vector Byte 16) : (s.setV w).sp = s.sp := rfl
@[simp] theorem State.setV_stack (s : State) (w : Vector Byte 16) : (s.setV w).stack = s.stack := rfl
@[simp] theorem State.setV_dt (s : State) (w : Vector Byte 16) : (s.setV w).dt = s.dt := rfl
@[simp] theorem State.setV_st (s : State) (w : Vector Byte 16) : (s.setV w).st = s.st := rfl
@[simp] theorem State.setV_key (s : State) (w : Vector Byte 16) : (s.setV w).key = s.key := rfl
@[simp] theorem State.setV_fb (s : State) (w : Vector Byte 16) : (s.setV w).fb = s.fb := rfl
@[simp] theorem State.setV_out (s : State) (w : Vector Byte 16) : (s.setV w).out = s.out := rfl
@[simp] theorem State.setV_drawCount (s : State) (w : Vector Byte 16) : (s.setV w).drawCount = s.drawCount := rfl
@[simp] theorem State.setV_readByte (s : State) (w : Vector Byte 16) (k : Nat) : (s.setV w).readByte k = s.readByte k := rfl
@[simp] theorem State.setV_pixel (s : State) (w : Vector Byte 16) (px py : Nat) : (s.setV w).pixel px py = s.pixel px py := rfl

/-! ### setI -/

@[simp] theorem State.setI_config (s : State) (w : Word) : (s.setI w).config = s.config := rfl
@[simp] theorem State.setI_initialized (s : State) (w : Word) : (s.setI w).initialized = s.initialized := rfl
@[simp] theorem State.setI_mem (s : State) (w : Word) : (s.setI w).mem = s.mem := rfl
@[simp] theorem State.setI_v (s : State) (w : Word) : (s.setI w).v = s.v := rfl
@[simp] theorem State.setI_i (s : State) (w : Word) : (s.setI w).i = w := rfl
@[simp] theorem State.setI_pc (s : State) (w : Word) : (s.setI w).pc = s.pc := rfl
@[simp] theorem State.setI_sp (s : State) (w : Word) : (s.setI w).sp = s.sp := rfl
@[simp] theorem State.setI_stack (s : State) (w : Word) : (s.setI w).stack = s.stack := rfl
@[simp] theorem State.setI_dt (s : State) (w : Word) : (s.setI w).dt = s.dt := rfl
@[simp] theorem State.setI_st (s : State) (w : Word) : (s.setI w).st = s.st := rfl
@[simp] theorem State.setI_key (s : State) (w : Word) : (s.setI w).key = s.key := rfl
@[simp] theorem State.setI_fb (s : State) (w : Word) : (s.setI w).fb = s.fb := rfl
@[simp] theorem State.setI_out (s : State) (w : Word) : (s.setI w).out = s.out := rfl
@[simp] theorem State.setI_drawCount (s : State) (w : Word) : (s.setI w).drawCount = s.drawCount := rfl
@[simp] theorem State.setI_reg (s : State) (w : Word) (k : RegIdx) : (s.setI w).reg k = s.reg k := rfl
@[simp] theorem State.setI_readByte (s : State) (w : Word) (k : Nat) : (s.setI w).readByte k = s.readByte k := rfl
@[simp] theorem State.setI_pixel (s : State) (w : Word) (px py : Nat) : (s.setI w).pixel px py = s.pixel px py := rfl

/-! ### setPc -/

@[simp] theorem State.setPc_config (s : State) (w : Word) : (s.setPc w).config = s.config := rfl
@[simp] theorem State.setPc_initialized (s : State) (w : Word) : (s.setPc w).initialized = s.initialized := rfl
@[simp] theorem State.setPc_mem (s : State) (w : Word) : (s.setPc w).mem = s.mem := rfl
@[simp] theorem State.setPc_v (s : State) (w : Word) : (s.setPc w).v = s.v := rfl
@[simp] theorem State.setPc_i (s : State) (w : Word) : (s.setPc w).i = s.i := rfl
@[simp] theorem State.setPc_pc (s : State) (w : Word) : (s.setPc w).pc = w := rfl
@[simp] theorem State.setPc_sp (s : State) (w : Word) : (s.setPc w).sp = s.sp := rfl
@[simp] theorem State.setPc_stack (s : State) (w : Word) : (s.setPc w).stack = s.stack := rfl
@[simp] theorem State.setPc_dt (s : State) (w : Word) : (s.setPc w).dt = s.dt := rfl
@[simp] theorem State.setPc_st (s : State) (w : Word) : (s.setPc w).st = s.st := rfl
@[simp] theorem State.setPc_key (s : State) (w : Word) : (s.setPc w).key = s.key := rfl
@[simp] theorem State.setPc_fb (s : State) (w : Word) : (s.setPc w).fb = s.fb := rfl
@[simp] theorem State.setPc_out (s : State) (w : Word) : (s.setPc w).out = s.out := rfl
@[simp] theorem State.setPc_drawCount (s : State) (w : Word) : (s.setPc w).drawCount = s.drawCount := rfl
@[simp] theorem State.setPc_reg (s : State) (w : Word) (k : RegIdx) : (s.setPc w).reg k = s.reg k := rfl
@[simp] theorem State.setPc_readByte (s : State) (w : Word) (k : Nat) : (s.setPc w).readByte k = s.readByte k := rfl
@[simp] theorem State.setPc_pixel (s : State) (w : Word) (px py : Nat) : (s.setPc w).pixel px py = s.pixel px py := rfl

/-! ### setDt -/

@[simp] theorem State.setDt_config (s : State) (b : Byte) : (s.setDt b).config = s.config := rfl
@[simp] theorem State.setDt_initialized (s : State) (b : Byte) : (s.setDt b).initialized = s.initialized := rfl
@[simp] theorem State.setDt_mem (s : State) (b : Byte) : (s.setDt b).mem = s.mem := rfl
@[simp] theorem State.setDt_v (s : State) (b : Byte) : (s.setDt b).v = s.v := rfl
@[simp] theorem State.setDt_i (s : State) (b : Byte) : (s.setDt b).i = s.i := rfl
@[simp] theorem State.setDt_pc (s : State) (b : Byte) : (s.setDt b).pc = s.pc := rfl
@[simp] theorem State.setDt_sp (s : State) (b : Byte) : (s.setDt b).sp = s.sp := rfl
@[simp] theorem State.setDt_stack (s : State) (b : Byte) : (s.setDt b).stack = s.stack := rfl
@[simp] theorem State.setDt_dt (s : State) (b : Byte) : (s.setDt b).dt = b := rfl
@[simp] theorem State.setDt_st (s : State) (b : Byte) : (s.setDt b).st = s.st := rfl
@[simp] theorem State.setDt_key (s : State) (b : Byte) : (s.setDt b).key = s.key := rfl
@[simp] theorem State.setDt_fb (s : State) (b : Byte) : (s.setDt b).fb = s.fb := rfl
@[simp] theorem State.setDt_out (s : State) (b : Byte) : (s.setDt b).out = s.out := rfl
@[simp] theorem State.setDt_drawCount (s : State) (b : Byte) : (s.setDt b).drawCount = s.drawCount := rfl
@[simp] theorem State.setDt_reg (s : State) (b : Byte) (k : RegIdx) : (s.setDt b).reg k = s.reg k := rfl
@[simp] theorem State.setDt_readByte (s : State) (b : Byte) (k : Nat) : (s.setDt b).readByte k = s.readByte k := rfl
@[simp] theorem State.setDt_pixel (s : State) (b : Byte) (px py : Nat) : (s.setDt b).pixel px py = s.pixel px py := rfl

/-! ### setSt -/

@[simp] theorem State.setSt_config (s : State) (b : Byte) : (s.setSt b).config = s.config := rfl
@[simp] theorem State.setSt_initialized (s : State) (b : Byte) : (s.setSt b).initialized = s.initialized := rfl
@[simp] theorem State.setSt_mem (s : State) (b : Byte) : (s.setSt b).mem = s.mem := rfl
@[simp] theorem State.setSt_v (s : State) (b : Byte) : (s.setSt b).v = s.v := rfl
@[simp] theorem State.setSt_i (s : State) (b : Byte) : (s.setSt b).i = s.i := rfl
@[simp] theorem State.setSt_pc (s : State) (b : Byte) : (s.setSt b).pc = s.pc := rfl
@[simp] theorem State.setSt_sp (s : State) (b : Byte) : (s.setSt b).sp = s.sp := rfl
@[simp] theorem State.setSt_stack (s : State) (b : Byte) : (s.setSt b).stack = s.stack := rfl
@[simp] theorem State.setSt_dt (s : State) (b : Byte) : (s.setSt b).dt = s.dt := rfl
@[simp] theorem State.setSt_st (s : State) (b : Byte) : (s.setSt b).st = b := rfl
@[simp] theorem State.setSt_key (s : State) (b : Byte) : (s.setSt b).key = s.key := rfl
@[simp] theorem State.setSt_fb (s : State) (b : Byte) : (s.setSt b).fb = s.fb := rfl
@[simp] theorem State.setSt_out (s : State) (b : Byte) : (s.setSt b).out = s.out := rfl
@[simp] theorem State.setSt_drawCount (s : State) (b : Byte) : (s.setSt b).drawCount = s.drawCount := rfl
@[simp] theorem State.setSt_reg (s : State) (b : Byte) (k : RegIdx) : (s.setSt b).reg k = s.reg k := rfl
@[simp] theorem State.setSt_readByte (s : State) (b : Byte) (k : Nat) : (s.setSt b).readByte k = s.readByte k := rfl
@[simp] theorem State.setSt_pixel (s : State) (b : Byte) (px py : Nat) : (s.setSt b).pixel px py = s.pixel px py := rfl

/-! ### pushPc -/

@[simp] theorem State.pushPc_config (s : State) (h : s.sp.toNat < 16) : (s.pushPc h).config = s.config := rfl
@[simp] theorem State.pushPc_initialized (s : State) (h : s.sp.toNat < 16) : (s.pushPc h).initialized = s.initialized := rfl
@[simp] theorem State.pushPc_mem (s : State) (h : s.sp.toNat < 16) : (s.pushPc h).mem = s.mem := rfl
@[simp] theorem State.pushPc_v (s : State) (h : s.sp.toNat < 16) : (s.pushPc h).v = s.v := rfl
@[simp] theorem State.pushPc_i (s : State) (h : s.sp.toNat < 16) : (s.pushPc h).i = s.i := rfl
@[simp] theorem State.pushPc_pc (s : State) (h : s.sp.toNat < 16) : (s.pushPc h).pc = s.pc := rfl
@[simp] theorem State.pushPc_sp (s : State) (h : s.sp.toNat < 16) : (s.pushPc h).sp = s.sp + 1 := rfl
@[simp] theorem State.pushPc_stack (s : State) (h : s.sp.toNat < 16) : (s.pushPc h).stack = s.stack.set s.sp.toNat s.pc := rfl
@[simp] theorem State.pushPc_dt (s : State) (h : s.sp.toNat < 16) : (s.pushPc h).dt = s.dt := rfl
@[simp] theorem State.pushPc_st (s : State) (h : s.sp.toNat < 16) : (s.pushPc h).st = s.st := rfl
@[simp] theorem State.pushPc_key (s : State) (h : s.sp.toNat < 16) : (s.pushPc h).key = s.key := rfl
@[simp] theorem State.pushPc_fb (s : State) (h : s.sp.toNat < 16) : (s.pushPc h).fb = s.fb := rfl
@[simp] theorem State.pushPc_out (s : State) (h : s.sp.toNat < 16) : (s.pushPc h).out = s.out := rfl
@[simp] theorem State.pushPc_drawCount (s : State) (h : s.sp.toNat < 16) : (s.pushPc h).drawCount = s.drawCount := rfl
@[simp] theorem State.pushPc_reg (s : State) (h : s.sp.toNat < 16) (k : RegIdx) : (s.pushPc h).reg k = s.reg k := rfl
@[simp] theorem State.pushPc_readByte (s : State) (h : s.sp.toNat < 16) (k : Nat) : (s.pushPc h).readByte k = s.readByte k := rfl
@[simp] theorem State.pushPc_pixel (s : State) (h : s.sp.toNat < 16) (px py : Nat) : (s.pushPc h).pixel px py = s.pixel px py := rfl

/-! ### decSp -/

@[simp] theorem State.decSp_config (s : State) : s.decSp.config = s.config := rfl
@[simp] theorem State.decSp_initialized (s : State) : s.decSp.initialized = s.initialized := rfl
@[simp] theorem State.decSp_mem (s : State) : s.decSp.mem = s.mem := rfl
@[simp] theorem State.decSp_v (s : State) : s.decSp.v = s.v := rfl
@[simp] theorem State.decSp_i (s : State) : s.decSp.i = s.i := rfl
@[simp] theorem State.decSp_pc (s : State) : s.decSp.pc = s.pc := rfl
@[simp] theorem State.decSp_sp (s : State) : s.decSp.sp = s.sp - 1 := rfl
@[simp] theorem State.decSp_stack (s : State) : s.decSp.stack = s.stack := rfl
@[simp] theorem State.decSp_dt (s : State) : s.decSp.dt = s.dt := rfl
@[simp] theorem State.decSp_st (s : State) : s.decSp.st = s.st := rfl
@[simp] theorem State.decSp_key (s : State) : s.decSp.key = s.key := rfl
@[simp] theorem State.decSp_fb (s : State) : s.decSp.fb = s.fb := rfl
@[simp] theorem State.decSp_out (s : State) : s.decSp.out = s.out := rfl
@[simp] theorem State.decSp_drawCount (s : State) : s.decSp.drawCount = s.drawCount := rfl
@[simp] theorem State.decSp_reg (s : State) (k : RegIdx) : s.decSp.reg k = s.reg k := rfl
@[simp] theorem State.decSp_readByte (s : State) (k : Nat) : s.decSp.readByte k = s.readByte k := rfl
@[simp] theorem State.decSp_pixel (s : State) (px py : Nat) : s.decSp.pixel px py = s.pixel px py := rfl

/-! ### clearSlot -/

@[simp] theorem State.clearSlot_config (s : State) (h : s.sp.toNat < 16) : (s.clearSlot h).config = s.config := rfl
@[simp] theorem State.clearSlot_initialized (s : State) (h : s.sp.toNat < 16) : (s.clearSlot h).initialized = s.initialized := rfl
@[simp] theorem State.clearSlot_mem (s : State) (h : s.sp.toNat < 16) : (s.clearSlot h).mem = s.mem := rfl
@[simp] theorem State.clearSlot_v (s : State) (h : s.sp.toNat < 16) : (s.clearSlot h).v = s.v := rfl
@[simp] theorem State.clearSlot_i (s : State) (h : s.sp.toNat < 16) : (s.clearSlot h).i = s.i := rfl
@[simp] theorem State.clearSlot_pc (s : State) (h : s.sp.toNat < 16) : (s.clearSlot h).pc = s.pc := rfl
@[simp] theorem State.clearSlot_sp (s : State) (h : s.sp.toNat < 16) : (s.clearSlot h).sp = s.sp := rfl
@[simp] theorem State.clearSlot_stack (s : State) (h : s.sp.toNat < 16) : (s.clearSlot h).stack = s.stack.set s.sp.toNat 0 := rfl
@[simp] theorem State.clearSlot_dt (s : State) (h : s.sp.toNat < 16) : (s.clearSlot h).dt = s.dt := rfl
@[simp] theorem State.clearSlot_st (s : State) (h : s.sp.toNat < 16) : (s.clearSlot h).st = s.st := rfl
@[simp] theorem State.clearSlot_key (s : State) (h : s.sp.toNat < 16) : (s.clearSlot h).key = s.key := rfl
@[simp] theorem State.clearSlot_fb (s : State) (h : s.sp.toNat < 16) : (s.clearSlot h).fb = s.fb := rfl
@[simp] theorem State.clearSlot_out (s : State) (h : s.sp.toNat < 16) : (s.clearSlot h).out = s.out := rfl
@[simp] theorem State.clearSlot_drawCount (s : State) (h : s.sp.toNat < 16) : (s.clearSlot h).drawCount = s.drawCount := rfl
@[simp] theorem State.clearSlot_reg (s : State) (h : s.sp.toNat < 16) (k : RegIdx) : (s.clearSlot h).reg k = s.reg k := rfl
@[simp] theorem State.clearSlot_readByte (s : State) (h : s.sp.toNat < 16) (k : Nat) : (s.clearSlot h).readByte k = s.readByte k := rfl
@[simp] theorem State.clearSlot_pixel (s : State) (h : s.sp.toNat < 16) (px py : Nat) : (s.clearSlot h).pixel px py = s.pixel px py := rfl

/-! ### setFb -/

@[simp] theorem State.setFb_config (s : State) (f : Screen) : (s.setFb f).config = s.config := rfl
@[simp] theorem State.setFb_initialized (s : State) (f : Screen) : (s.setFb f).initialized = s.initialized := rfl
@[simp] theorem State.setFb_mem (s : State) (f : Screen) : (s.setFb f).mem = s.mem := rfl
@[simp] theorem State.setFb_v (s : State) (f : Screen) : (s.setFb f).v = s.v := rfl
@[simp] theorem State.setFb_i (s : State) (f : Screen) : (s.setFb f).i = s.i := rfl
@[simp] theorem State.setFb_pc (s : State) (f : Screen) : (s.setFb f).pc = s.pc := rfl
@[simp] theorem State.setFb_sp (s : State) (f : Screen) : (s.setFb f).sp = s.sp := rfl
@[simp] theorem State.setFb_stack (s : State) (f : Screen) : (s.setFb f).stack = s.stack := rfl
@[simp] theorem State.setFb_dt (s : State) (f : Screen) : (s.setFb f).dt = s.dt := rfl
@[simp] theorem State.setFb_st (s : State) (f : Screen) : (s.setFb f).st = s.st := rfl
@[simp] theorem State.setFb_key (s : State) (f : Screen) : (s.setFb f).key = s.key := rfl
@[simp] theorem State.setFb_fb (s : State) (f : Screen) : (s.setFb f).fb = f := rfl
@[simp] theorem State.setFb_out (s : State) (f : Screen) : (s.setFb f).out = s.out := rfl
@[simp] theorem State.setFb_drawCount (s : State) (f : Screen) : (s.setFb f).drawCount = s.drawCount := rfl
@[simp] theorem State.setFb_reg (s : State) (f : Screen) (k : RegIdx) : (s.setFb f).reg k = s.reg k := rfl
@[simp] theorem State.setFb_readByte (s : State) (f : Screen) (k : Nat) : (s.setFb f).readByte k = s.readByte k := rfl

/-! ### emit -/

@[simp] theorem State.emit_config (s : State) (e : LogEvent) : (s.emit e).config = s.config := rfl
@[simp] theorem State.emit_initialized (s : State) (e : LogEvent) : (s.emit e).initialized = s.initialized := rfl
@[simp] theorem State.emit_mem (s : State) (e : LogEvent) : (s.emit e).mem = s.mem := rfl
@[simp] theorem State.emit_v (s : State) (e : LogEvent) : (s.emit e).v = s.v := rfl
@[simp] theorem State.emit_i (s : State) (e : LogEvent) : (s.emit e).i = s.i := rfl
@[simp] theorem State.emit_pc (s : State) (e : LogEvent) : (s.emit e).pc = s.pc := rfl
@[simp] theorem State.emit_sp (s : State) (e : LogEvent) : (s.emit e).sp = s.sp := rfl
@[simp] theorem State.emit_stack (s : State) (e : LogEvent) : (s.emit e).stack = s.stack := rfl
@[simp] theorem State.emit_dt (s : State) (e : LogEvent) : (s.emit e).dt = s.dt := rfl
@[simp] theorem State.emit_st (s : State) (e : LogEvent) : (s.emit e).st = s.st := rfl
@[simp] theorem State.emit_key (s : State) (e : LogEvent) : (s.emit e).key = s.key := rfl
@[simp] theorem State.emit_fb (s : State) (e : LogEvent) : (s.emit e).fb = s.fb := rfl
@[simp] theorem State.emit_out (s : State) (e : LogEvent) : (s.emit e).out = { s.out with log := s.out.log ++ [e] } := rfl
@[simp] theorem State.emit_drawCount (s : State) (e : LogEvent) : (s.emit e).drawCount = s.drawCount := rfl
@[simp] theorem State.emit_reg (s : State) (e : LogEvent) (k : RegIdx) : (s.emit e).reg k = s.reg k := rfl
@[simp] theorem State.emit_readByte (s : State) (e : LogEvent) (k : Nat) : (s.emit e).readByte k = s.readByte k := rfl
@[simp] theorem State.emit_pixel (s : State) (e : LogEvent) (px py : Nat) : (s.emit e).pixel px py = s.pixel px py := rfl

/-! ### noSignal -/

@[simp] theorem State.noSignal_config (s : State) : s.noSignal.config = s.config := rfl
@[simp] theorem State.noSignal_initialized (s : State) : s.noSignal.initialized = s.initialized := rfl
@[simp] theorem State.noSignal_mem (s : State) : s.noSignal.mem = s.mem := rfl
@[simp] theorem State.noSignal_v (s : State) : s.noSignal.v = s.v := rfl
@[simp] theorem State.noSignal_i (s : State) : s.noSignal.i = s.i := rfl
@[simp] theorem State.noSignal_pc (s : State) : s.noSignal.pc = s.pc := rfl
@[simp] theorem State.noSignal_sp (s : State) : s.noSignal.sp = s.sp := rfl
@[simp] theorem State.noSignal_stack (s : State) : s.noSignal.stack = s.stack := rfl
@[simp] theorem State.noSignal_dt (s : State) : s.noSignal.dt = s.dt := rfl
@[simp] theorem State.noSignal_st (s : State) : s.noSignal.st = s.st := rfl
@[simp] theorem State.noSignal_key (s : State) : s.noSignal.key = s.key := rfl
@[simp] theorem State.noSignal_fb (s : State) : s.noSignal.fb = s.fb := rfl
@[simp] theorem State.noSignal_out (s : State) : s.noSignal.out = { s.out with delayExpired := false, soundExpired := false, beep := false } := rfl
@[simp] theorem State.noSignal_drawCount (s : State) : s.noSignal.drawCount = s.drawCount := rfl
@[simp] theorem State.noSignal_reg (s : State) (k : RegIdx) : s.noSignal.reg k = s.reg k := rfl
@[simp] theorem State.noSignal_readByte (s : State) (k : Nat) : s.noSignal.readByte k = s.readByte k := rfl
@[simp] theorem State.noSignal_pixel (s : State) (px py : Nat) : s.noSignal.pixel px py = s.pixel px py := rfl

/-! ### beginCycle -/

@[simp] theorem State.beginCycle_config (s : State) : s.beginCycle.config = s.config := rfl
@[simp] theorem State.beginCycle_initialized (s : State) : s.beginCycle.initialized = s.initialized := rfl
@[simp] theorem State.beginCycle_mem (s : State) : s.beginCycle.mem = s.mem := rfl
@[simp] theorem State.beginCycle_v (s : State) : s.beginCycle.v = s.v := rfl
@[simp] theorem State.beginCycle_i (s : State) : s.beginCycle.i = s.i := rfl
@[simp] theorem State.beginCycle_pc (s : State) : s.beginCycle.pc = s.pc := rfl
@[simp] theorem State.beginCycle_sp (s : State) : s.beginCycle.sp = s.sp := rfl
@[simp] theorem State.beginCycle_stack (s : State) : s.beginCycle.stack = s.stack := rfl
@[simp] theorem State.beginCycle_dt (s : State) : s.beginCycle.dt = s.dt := rfl
@[simp] theorem State.beginCycle_st (s : State) : s.beginCycle.st = s.st := rfl
@[simp] theorem State.beginCycle_key (s : State) : s.beginCycle.key = s.key := rfl
@[simp] theorem State.beginCycle_fb (s : State) : s.beginCycle.fb = s.fb := rfl
@[simp] theorem State.beginCycle_out (s : State) : s.beginCycle.out = Outputs.quiet := rfl
@[simp] theorem State.beginCycle_drawCount (s : State) : s.beginCycle.drawCount = s.drawCount + 1 := rfl
@[simp] theorem State.beginCycle_reg (s : State) (k : RegIdx) : s.beginCycle.reg k = s.reg k := rfl
@[simp] theorem State.beginCycle_readByte (s : State) (k : Nat) : s.beginCycle.readByte k = s.readByte k := rfl
@[simp] theorem State.beginCycle_pixel (s : State) (px py : Nat) : s.beginCycle.pixel px py = s.pixel px py := rfl

/-! ### advancePc -/

@[simp] theorem State.advancePc_config (s : State) : s.advancePc.config = s.config := rfl
@[simp] theorem State.advancePc_initialized (s : State) : s.advancePc.initialized = s.initialized := rfl
@[simp] theorem State.advancePc_mem (s : State) : s.advancePc.mem = s.mem := rfl
@[simp] theorem State.advancePc_v (s : State) : s.advancePc.v = s.v := rfl
@[simp] theorem State.advancePc_i (s : State) : s.advancePc.i = s.i := rfl
@[simp] theorem State.advancePc_pc (s : State) : s.advancePc.pc = s.pc + 2 := rfl
@[simp] theorem State.advancePc_sp (s : State) : s.advancePc.sp = s.sp := rfl
@[simp] theorem State.advancePc_stack (s : State) : s.advancePc.stack = s.stack := rfl
@[simp] theorem State.advancePc_dt (s : State) : s.advancePc.dt = s.dt := rfl
@[simp] theorem State.advancePc_st (s : State) : s.advancePc.st = s.st := rfl
@[simp] theorem State.advancePc_key (s : State) : s.advancePc.key = s.key := rfl
@[simp] theorem State.advancePc_fb (s : State) : s.advancePc.fb = s.fb := rfl
@[simp] theorem State.advancePc_out (s : State) : s.advancePc.out = s.out := rfl
@[simp] theorem State.advancePc_drawCount (s : State) : s.advancePc.drawCount = s.drawCount := rfl
@[simp] theorem State.advancePc_reg (s : State) (k : RegIdx) : s.advancePc.reg k = s.reg k := rfl
@[simp] theorem State.advancePc_readByte (s : State) (k : Nat) : s.advancePc.readByte k = s.readByte k := rfl
@[simp] theorem State.advancePc_pixel (s : State) (px py : Nat) : s.advancePc.pixel px py = s.pixel px py := rfl

/-! ### tick -/

@[simp] theorem State.tick_config (s : State) : s.tick.config = s.config := rfl
@[simp] theorem State.tick_initialized (s : State) : s.tick.initialized = s.initialized := rfl
@[simp] theorem State.tick_mem (s : State) : s.tick.mem = s.mem := rfl
@[simp] theorem State.tick_v (s : State) : s.tick.v = s.v := rfl
@[simp] theorem State.tick_i (s : State) : s.tick.i = s.i := rfl
@[simp] theorem State.tick_pc (s : State) : s.tick.pc = s.pc := rfl
@[simp] theorem State.tick_sp (s : State) : s.tick.sp = s.sp := rfl
@[simp] theorem State.tick_stack (s : State) : s.tick.stack = s.stack := rfl
@[simp] theorem State.tick_dt (s : State) : s.tick.dt = tickTimer s.dt := rfl
@[simp] theorem State.tick_st (s : State) : s.tick.st = tickTimer s.st := rfl
@[simp] theorem State.tick_key (s : State) : s.tick.key = s.key := rfl
@[simp] theorem State.tick_fb (s : State) : s.tick.fb = s.fb := rfl
@[simp] theorem State.tick_out (s : State) : s.tick.out = { s.out with delayExpired := decide (s.dt = 1), soundExpired := decide (s.st = 1), beep := decide (s.st.toNat > 0) } := rfl
@[simp] theorem State.tick_drawCount (s : State) : s.tick.drawCount = s.drawCount := rfl
@[simp] theorem State.tick_reg (s : State) (k : RegIdx) : s.tick.reg k = s.reg k := rfl
@[simp] theorem State.tick_readByte (s : State) (k : Nat) : s.tick.readByte k = s.readByte k := rfl
@[simp] theorem State.tick_pixel (s : State) (px py : Nat) : s.tick.pixel px py = s.pixel px py := rfl

/-! ### skipIf -/

@[simp] theorem State.skipIf_config (s : State) (c : Bool) : (s.skipIf c).config = s.config := by cases c <;> rfl
@[simp] theorem State.skipIf_initialized (s : State) (c : Bool) : (s.skipIf c).initialized = s.initialized := by cases c <;> rfl
@[simp] theorem State.skipIf_mem (s : State) (c : Bool) : (s.skipIf c).mem = s.mem := by cases c <;> rfl
@[simp] theorem State.skipIf_v (s : State) (c : Bool) : (s.skipIf c).v = s.v := by cases c <;> rfl
@[simp] theorem State.skipIf_i (s : State) (c : Bool) : (s.skipIf c).i = s.i := by cases c <;> rfl
@[simp] theorem State.skipIf_pc (s : State) (c : Bool) : (s.skipIf c).pc = if c then s.pc + 2 else s.pc := by cases c <;> rfl
@[simp] theorem State.skipIf_sp (s : State) (c : Bool) : (s.skipIf c).sp = s.sp := by cases c <;> rfl
@[simp] theorem State.skipIf_stack (s : State) (c : Bool) : (s.skipIf c).stack = s.stack := by cases c <;> rfl
@[simp] theorem State.skipIf_dt (s : State) (c : Bool) : (s.skipIf c).dt = s.dt := by cases c <;> rfl
@[simp] theorem State.skipIf_st (s : State) (c : Bool) : (s.skipIf c).st = s.st := by cases c <;> rfl
@[simp] theorem State.skipIf_key (s : State) (c : Bool) : (s.skipIf c).key = s.key := by cases c <;> rfl
@[simp] theorem State.skipIf_fb (s : State) (c : Bool) : (s.skipIf c).fb = s.fb := by cases c <;> rfl
@[simp] theorem State.skipIf_out (s : State) (c : Bool) : (s.skipIf c).out = s.out := by cases c <;> rfl
@[simp] theorem State.skipIf_drawCount (s : State) (c : Bool) : (s.skipIf c).drawCount = s.drawCount := by cases c <;> rfl
@[simp] theorem State.skipIf_reg (s : State) (c : Bool) (k : RegIdx) : (s.skipIf c).reg k = s.reg k := by cases c <;> rfl
@[simp] theorem State.skipIf_readByte (s : State) (c : Bool) (k : Nat) : (s.skipIf c).readByte k = s.readByte k := by cases c <;> rfl

/-! ### writeBytes -/

@[simp] theorem State.writeBytes_config (s : State) (a : Nat) (bs : List Byte) : (s.writeBytes a bs).config = s.config := by
  induction bs generalizing s a with
  | nil => rfl
  | cons b bs ih => exact ih _ _
@[simp] theorem State.writeBytes_initialized (s : State) (a : Nat) (bs : List Byte) : (s.writeBytes a bs).initialized = s.initialized := by
  induction bs generalizing s a with
  | nil => rfl
  | cons b bs ih => exact ih _ _
@[simp] theorem State.writeBytes_v (s : State) (a : Nat) (bs : List Byte) : (s.writeBytes a bs).v = s.v := by
  induction bs generalizing s a with
  | nil => rfl
  | cons b bs ih => exact ih _ _
@[simp] theorem State.writeBytes_i (s : State) (a : Nat) (bs : List Byte) : (s.writeBytes a bs).i = s.i := by
  induction bs generalizing s a with
  | nil => rfl
  | cons b bs ih => exact ih _ _
@[simp] theorem State.writeBytes_pc (s : State) (a : Nat) (bs : List Byte) : (s.writeBytes a bs).pc = s.pc := by
  induction bs generalizing s a with
  | nil => rfl
  | cons b bs ih => exact ih _ _
@[simp] theorem State.writeBytes_sp (s : State) (a : Nat) (bs : List Byte) : (s.writeBytes a bs).sp = s.sp := by
  induction bs generalizing s a with
  | nil => rfl
  | cons b bs ih => exact ih _ _
@[simp] theorem State.writeBytes_stack (s : State) (a : Nat) (bs : List Byte) : (s.writeBytes a bs).stack = s.stack := by
  induction bs generalizing s a with
  | nil => rfl
  | cons b bs ih => exact ih _ _
@[simp] theorem State.writeBytes_dt (s : State) (a : Nat) (bs : List Byte) : (s.writeBytes a bs).dt = s.dt := by
  induction bs generalizing s a with
  | nil => rfl
  | cons b bs ih => exact ih _ _
@[simp] theorem State.writeBytes_st (s : State) (a : Nat) (bs : List Byte) : (s.writeBytes a bs).st = s.st := by
  induction bs generalizing s a with
  | nil => rfl
  | cons b bs ih => exact ih _ _
@[simp] theorem State.writeBytes_key (s : State) (a : Nat) (bs : List Byte) : (s.writeBytes a bs).key = s.key := by
  induction bs generalizing s a with
  | nil => rfl
  | cons b bs ih => exact ih _ _
@[simp] theorem State.writeBytes_fb (s : State) (a : Nat) (bs : List Byte) : (s.writeBytes a bs).fb = s.fb := by
  induction bs generalizing s a with
  | nil => rfl
  | cons b bs ih => exact ih _ _
@[simp] theorem State.writeBytes_out (s : State) (a : Nat) (bs : List Byte) : (s.writeBytes a bs).out = s.out := by
  induction bs generalizing s a with
  | nil => rfl
  | cons b bs ih => exact ih _ _
@[simp] theorem State.writeBytes_drawCount (s : State) (a : Nat) (bs : List Byte) : (s.writeBytes a bs).drawCount = s.drawCount := by
  induction bs generalizing s a with
  | nil => rfl
  | cons b bs ih => exact ih _ _
@[simp] theorem State.writeBytes_reg (s : State) (a : Nat) (bs : List Byte) (k : RegIdx) : (s.writeBytes a bs).reg k = s.reg k := by
  simp [State.reg]

/-- Bytes written change memory and nothing else. -/
theorem State.writeBytes_eq (s : State) (a : Nat) (bs : List Byte) :
    s.writeBytes a bs = { s with mem := (s.writeBytes a bs).mem } := by
  induction bs generalizing s a with
  | nil => rfl
  | cons b bs ih => exact ih _ _

/-- A skip changes PC and nothing else. -/
theorem State.skipIf_eq (s : State) (c : Bool) : s.skipIf c = { s with pc := if c then s.pc + 2 else s.pc } := by
  cases c <;> rfl

end Sys2Proof.Machine
end

