-- ==== Sys2Proof/Laws/Memory.lean ====
section
/-! SUPPORT. The laws of memory: what a read gives after a write, and that every memory operation keeps the canonical form
(`20_memory.md` R69). -/

namespace Sys2Proof.Machine

/-! ## Reads -/

@[simp] theorem Memory.read_nil (font : Font) (a : Nat) : Memory.read font [] a = Memory.unlisted font a := rfl

theorem Memory.read_put (font : Font) (m : Memory) (a : Nat) (b : Byte) (k : Nat) :
    Memory.read font (Memory.put m a b) k = if k = a then b else Memory.read font m k := by
  induction m with
  | nil => simp only [Memory.put, Memory.read]; grind
  | cons c m ih => simp only [Memory.put]; split <;> (try split) <;> simp only [Memory.read] <;> grind

theorem Memory.read_drop (font : Font) (m : Memory) (a k : Nat) :
    Memory.read font (Memory.drop m a) k = if k = a then Memory.unlisted font a else Memory.read font m k := by
  induction m with
  | nil => simp only [Memory.drop, List.filter_nil, Memory.read]; grind
  | cons c m ih =>
    simp only [Memory.drop, List.filter_cons] at ih ⊢
    split <;> simp only [Memory.read] <;> grind

/-- A read gives the byte last written to its address, and other addresses keep theirs. -/
theorem Memory.read_write (font : Font) (m : Memory) (a : Nat) (b : Byte) (k : Nat) (h : a < memSize) :
    Memory.read font (Memory.write font m a b) k = if k = a then b else Memory.read font m k := by
  unfold Memory.write
  rw [if_neg (by omega)]
  split
  · next hb => rw [Memory.read_drop, hb]
  · exact Memory.read_put ..

theorem Memory.write_outside (font : Font) (m : Memory) (a : Nat) (b : Byte) (h : memSize ≤ a) :
    Memory.write font m a b = m := if_pos h

/-! ## The canonical form -/

theorem Memory.wf_nil (font : Font) : Memory.wf font [] := by simp [Memory.wf]

theorem Memory.mem_put {m : Memory} {a : Nat} {b : Byte} {c : Host.Cell} (h : c ∈ Memory.put m a b) :
    c = (a, b) ∨ c ∈ m := by
  induction m with
  | nil => simpa [Memory.put] using h
  | cons d m ih => simp only [Memory.put] at h; split at h <;> (try split at h) <;> grind

theorem Memory.put_rising {m : Memory} (a : Nat) (b : Byte) (h : m.Pairwise fun c d => c.1 < d.1) :
    (Memory.put m a b).Pairwise fun c d => c.1 < d.1 := by
  induction m with
  | nil => simp [Memory.put]
  | cons d m ih =>
    obtain ⟨hd, hm⟩ := List.pairwise_cons.mp h
    simp only [Memory.put]
    split
    · next hlt =>
      refine List.pairwise_cons.mpr ⟨fun c hc => ?_, h⟩
      rcases List.mem_cons.mp hc with rfl | hc
      · exact hlt
      · exact Nat.lt_trans hlt (hd c hc)
    · split
      · next heq => exact List.pairwise_cons.mpr ⟨fun c hc => heq ▸ hd c hc, hm⟩
      · refine List.pairwise_cons.mpr ⟨fun c hc => ?_, ih hm⟩
        rcases Memory.mem_put hc with rfl | hc
        · show d.1 < a; omega
        · exact hd c hc

/-- A write keeps the canonical form. -/
theorem Memory.wf_write {font : Font} {m : Memory} (h : Memory.wf font m) (a : Nat) (b : Byte) :
    Memory.wf font (Memory.write font m a b) := by
  unfold Memory.write
  split
  · exact h
  · next ha =>
    split
    · exact ⟨h.1.filter _, fun c hc => h.2 c (List.mem_filter.mp hc).1⟩
    · next hb =>
      refine ⟨Memory.put_rising a b h.1, fun c hc => ?_⟩
      rcases Memory.mem_put hc with rfl | hc
      · exact ⟨Nat.lt_of_not_le ha, hb⟩
      · exact h.2 c hc

/-- Where the addresses rise, a listed byte is what its address reads as. -/
theorem Memory.read_of_mem {font : Font} {m : Memory} (h : m.Pairwise fun c d => c.1 < d.1) {c : Host.Cell} (hc : c ∈ m) :
    Memory.read font m c.1 = c.2 := by
  induction m with
  | nil => cases hc
  | cons d m ih =>
    obtain ⟨hd, hm⟩ := List.pairwise_cons.mp h
    rcases List.mem_cons.mp hc with rfl | hc
    · simp [Memory.read]
    · have := hd c hc
      simp only [Memory.read]
      rw [if_neg (by omega), ih hm hc]

/-! ## Bytes of a state -/

theorem State.readByte_writeByte (s : State) (a : Nat) (b : Byte) (k : Nat) (h : a < memSize) :
    (s.writeByte a b).readByte k = if k = a then b else s.readByte k := Memory.read_write _ _ _ _ _ h

/-- What a read gives after a block of bytes is written inside memory: the block's byte inside it, the old byte outside. -/
theorem State.readByte_writeBytes (s : State) (a : Nat) (bs : List Byte) (k : Nat) (h : a + bs.length ≤ memSize) :
    (s.writeBytes a bs).readByte k = if h : a ≤ k ∧ k - a < bs.length then bs[k - a] else s.readByte k := by
  induction bs generalizing s a with
  | nil => simp [State.writeBytes]
  | cons b bs ih =>
    simp only [List.length_cons] at h
    rw [State.writeBytes, ih _ _ (by omega), State.readByte_writeByte _ _ _ _ (by omega)]
    by_cases hk : k = a
    · subst hk; simp
    · by_cases hin : a ≤ k ∧ k - a < bs.length + 1
      · have e : k - a = (k - (a + 1)) + 1 := by omega
        rw [dif_pos (by omega), dif_pos (by simpa using hin)]
        simp only [e, List.getElem_cons_succ]
      · rw [dif_neg (by omega), dif_neg (by simpa using hin), if_neg hk]

theorem State.writeBytes_wf (s : State) (a : Nat) (bs : List Byte) (h : Memory.wf s.config.font s.mem) :
    Memory.wf s.config.font (s.writeBytes a bs).mem := by
  induction bs generalizing s a with
  | nil => exact h
  | cons b bs ih => exact ih (s.writeByte a b) (a + 1) (Memory.wf_write h a b)

/-- Writing bytes does not look at the screen. -/
theorem State.writeBytes_of_fb (s : State) (f : Screen) (a : Nat) (bs : List Byte) :
    State.writeBytes { s with fb := f } a bs = { s.writeBytes a bs with fb := f } := by
  induction bs generalizing s a with
  | nil => rfl
  | cons b bs ih => exact ih (s.writeByte a b) (a + 1)

/-- Writing bytes does not look at the keypad. -/
theorem State.writeBytes_of_key (s : State) (k : Vector Bool 16) (a : Nat) (bs : List Byte) :
    State.writeBytes { s with key := k } a bs = { s.writeBytes a bs with key := k } := by
  induction bs generalizing s a with
  | nil => rfl
  | cons b bs ih => exact ih (s.writeByte a b) (a + 1)

/-- Writing bytes does not look at the sound timer. -/
theorem State.writeBytes_of_st (s : State) (w : Byte) (a : Nat) (bs : List Byte) :
    State.writeBytes { s with st := w } a bs = { s.writeBytes a bs with st := w } := by
  induction bs generalizing s a with
  | nil => rfl
  | cons b bs ih => exact ih (s.writeByte a b) (a + 1)

@[simp] theorem State.readBytes_length (s : State) (a n : Nat) : (s.readBytes a n).length = n := by simp [State.readBytes]

@[simp] theorem State.readBytes_getElem (s : State) (a n k : Nat) (h : k < (s.readBytes a n).length) :
    (s.readBytes a n)[k] = s.readByte (a + k) := by simp [State.readBytes]

end Sys2Proof.Machine
end

