-- ==== Sys2Proof/Laws/Ops.lean ====
section
/-! SUPPORT. What each shared operation does, said once: registers, the register block, the sprite rows, the tick, raising an
error, and a step by cases. Proofs cite these instead of unfolding the operations. -/

namespace Sys2Proof.Machine

/-! ## The code of a result -/

@[simp] theorem resultCode_next (s : State) : resultCode (.next s) = some 0 := rfl

@[simp] theorem resultCode_fault (f : Fault) : resultCode (.fault f) = some f.code := rfl

@[simp] theorem resultCode_refused (r : Refusal) : resultCode (.refused r) = none := rfl

/-- An error kind's code is 1 to 5: no error has the code of Ok. -/
theorem Fault.code_range (f : Fault) : 1 ≤ f.code ∧ f.code ≤ 5 := by cases f <;> simp [Fault.code]

/-! ## Parameters -/

theorem wsStart_cases (c : Config) : wsStart c = 0x600 ∨ wsStart c = 0x200 := by
  unfold wsStart; split <;> simp

/-- The program origin fits PC. -/
@[simp] theorem wsStart_toNat (c : Config) : (BitVec.ofNat 16 (wsStart c)).toNat = wsStart c := by
  rcases wsStart_cases c with h | h <;> rw [h] <;> rfl

theorem State.inWorkspace_iff (s : State) (a : Nat) : s.inWorkspace a = true ↔ wsStart s.config ≤ a ∧ a ≤ 0xFFF :=
  decide_eq_true_iff

/-! ## Registers -/

theorem State.reg_setReg (s : State) (x : RegIdx) (b : Byte) (k : RegIdx) :
    (s.setReg x b).reg k = if k = x then b else s.reg k := by
  simp only [State.reg, State.setReg, Fin.getElem_fin, Vector.getElem_set, Fin.ext_iff, eq_comm]

@[simp] theorem State.reg_setReg_same (s : State) (x : RegIdx) (b : Byte) : (s.setReg x b).reg x = b := by
  simp [State.reg_setReg]

/-- The flag is the value VF keeps (`42_alu.md` R152). -/
theorem State.reg_setRegAndFlag (s : State) (x : RegIdx) (b flag : Byte) (k : RegIdx) :
    (s.setRegAndFlag x b flag).reg k = if k = regF then flag else if k = x then b else s.reg k := by
  simp only [State.setRegAndFlag, State.reg_setReg]

@[simp] theorem State.reg_setV (s : State) (w : Vector Byte 16) (k : RegIdx) : (s.setV w).reg k = w[k] := rfl

/-- The register block writes `bs` from register `k` on and leaves the others alone. -/
theorem setRegsFrom_getElem (v : Vector Byte 16) (k : Nat) (bs : List Byte) (j : Nat) (hj : j < 16) :
    (setRegsFrom v k bs)[j] = if h : k ≤ j ∧ j - k < bs.length then bs[j - k] else v[j] := by
  induction bs generalizing v k with
  | nil => simp [setRegsFrom]
  | cons b bs ih =>
    rw [setRegsFrom, ih, Vector.getElem_setIfInBounds hj]
    by_cases hk : k = j
    · subst hk; simp
    · by_cases hin : k ≤ j ∧ j - k < bs.length + 1
      · have e : j - k = (j - (k + 1)) + 1 := by omega
        rw [dif_pos (by omega), dif_pos (by simpa using hin)]
        simp only [e, List.getElem_cons_succ]
      · rw [dif_neg (by omega), dif_neg (by simpa using hin), if_neg hk]

@[simp] theorem State.regsUpTo_length (s : State) (x : RegIdx) : (s.regsUpTo x).length = x.val + 1 := by
  simp [State.regsUpTo]

@[simp] theorem State.regsUpTo_getElem (s : State) (x : RegIdx) (k : Nat) (h : k < (s.regsUpTo x).length) :
    (s.regsUpTo x)[k] = s.v[k]'(by simp at h; omega) := by
  simp [State.regsUpTo]

/-! ## The screen -/

theorem State.pixel_of_lt (s : State) (x y : Nat) (h : y < 32) : s.pixel x y = s.fb[y].getMsbD x := by
  simp [State.pixel, h]

@[simp] theorem State.pixel_setFb (s : State) (f : Screen) (x y : Nat) (h : y < 32) :
    (s.setFb f).pixel x y = f[y].getMsbD x := State.pixel_of_lt _ _ _ h

/-- Column `px` of a placed sprite byte is bit `7 - (px - cx)` of the byte, and nothing outside its 8 columns
(`44_display.md` R183). -/
theorem spriteRow_getMsbD (b : Byte) (cx px : Nat) (h : px < 64) :
    (spriteRow b cx).getMsbD px = (decide (cx ≤ px ∧ px < cx + 8) && b.getLsbD (7 - (px - cx))) := by
  simp only [spriteRow, BitVec.getMsbD_ushiftRight, BitVec.getMsbD_append]
  simp only [BitVec.getMsbD]
  by_cases h1 : px < cx
  · simp [h1]
  · by_cases h2 : px < cx + 8
    · have : px - cx < 8 := by omega
      simp [h, h1, h2, this, show cx ≤ px by omega, show ¬ 8 ≤ px - cx by omega]
    · have : ¬ px - cx < 8 := by omega
      simp [h1, h2, this]

/-- The screen after the row loop: row `j` is XORed with its sprite byte where it has one, and no other row changes. -/
theorem drawRows_screen (cx : Nat) (bs : List Byte) (y : Nat) (fb : Screen) (hit : Bool) (j : Nat) (hj : j < 32) :
    (drawRows cx bs y fb hit).1[j] =
      if h : y ≤ j ∧ j - y < bs.length then fb[j] ^^^ spriteRow bs[j - y] cx else fb[j] := by
  induction bs generalizing y fb hit with
  | nil => simp [drawRows]
  | cons b bs ih =>
    rw [drawRows]
    split
    · next hy =>
      rw [ih, Vector.getElem_set hy hj]
      by_cases hk : y = j
      · subst hk; simp
      · by_cases hin : y ≤ j ∧ j - y < bs.length + 1
        · have e : j - y = (j - (y + 1)) + 1 := by omega
          rw [dif_pos (by omega), dif_pos (by simpa using hin), if_neg hk]
          simp only [e, List.getElem_cons_succ]
        · rw [dif_neg (by omega), dif_neg (by simpa using hin), if_neg hk]
    · next hy => simp [show ¬ y ≤ j by omega]

/-- The collision of the row loop: it was set before, or some drawn row had a pixel set both on the screen and in the sprite. -/
theorem drawRows_hit (cx : Nat) (bs : List Byte) (y : Nat) (fb : Screen) (hit : Bool) :
    (drawRows cx bs y fb hit).2 = true ↔
      hit = true ∨ ∃ (r : Nat) (hr : r < bs.length) (hy : y + r < 32), fb[y + r] &&& spriteRow bs[r] cx ≠ 0 := by
  induction bs generalizing y fb hit with
  | nil => simp [drawRows]
  | cons b bs ih =>
    rw [drawRows]
    split
    · next hlt =>
      rw [ih]
      constructor
      · rintro (h | ⟨r, hr, hy, h⟩)
        · rcases Bool.or_eq_true_iff.mp h with h | h
          · exact .inl h
          · exact .inr ⟨0, by simp, hlt, by simpa using h⟩
        · refine .inr ⟨r + 1, by simpa using hr, by omega, ?_⟩
          rw [Vector.getElem_set_ne _ _ (by omega)] at h
          simpa [show y + 1 + r = y + (r + 1) by omega] using h
      · rintro (h | ⟨r, hr, hy, h⟩)
        · exact .inl (by simp [h])
        · cases r with
          | zero => exact .inl (by simpa using .inr h)
          | succ r =>
            refine .inr ⟨r, by simpa using hr, by omega, ?_⟩
            rw [Vector.getElem_set_ne _ _ (by omega)]
            simpa [show y + 1 + r = y + (r + 1) by omega] using h
    · next hlt =>
      constructor
      · exact .inl
      · rintro (h | ⟨r, hr, hy, h⟩)
        · exact h
        · omega

/-! ## The tick -/

@[simp] theorem tickTimer_toNat (t : Byte) : (tickTimer t).toNat = t.toNat - 1 := by
  unfold tickTimer
  split
  · next h => rw [BitVec.toNat_sub_of_le (by simp [BitVec.le_def]; omega)]; rfl
  · omega

theorem thenTick_next {r : Result} {t : State} : thenTick r = .next t ↔ ∃ u, r = .next u ∧ t = u.tick := by
  cases r <;> simp [thenTick, eq_comm]

theorem thenTick_fault {r : Result} {f : Fault} : thenTick r = .fault f ↔ r = .fault f := by
  cases r <;> simp [thenTick]

theorem thenTick_refused {r : Result} {e : Refusal} : thenTick r = .refused e ↔ r = .refused e := by
  cases r <;> simp [thenTick]

/-! ## Errors -/

@[simp] theorem raise_ne_next (e : State → Fault) (s t : State) : raise e s ≠ .next t := by simp [raise]

@[simp] theorem raise_ne_refused (e : State → Fault) (s : State) (r : Refusal) : raise e s ≠ .refused r := by simp [raise]

/-! ## A step by cases -/

/-- What a step that answers a next state did. -/
theorem step_next_cases {s t : State} (h : step s = .next t) :
    s.initialized = true ∧ s.pc.toNat + 1 ≤ 0xFFF ∧
      ∃ u, dispatch s.fetchOpcode s.beginCycle.advancePc = .next u ∧ t = u.tick := by
  unfold step at h
  split at h
  · cases h
  · split at h
    · exact (raise_ne_next _ _ _ h).elim
    · next hi hf => exact ⟨by simpa using hi, by simpa [State.fetchFaults] using hf, thenTick_next.mp h⟩

/-- What a step that answers an error did: the fetch failed, or the instruction raised it. -/
theorem step_fault_cases {s : State} {f : Fault} (h : step s = .fault f) :
    s.initialized = true ∧
      ((0xFFF < s.pc.toNat + 1 ∧ f = .segmentationFault s.pc s.beginCycle.noSignal) ∨
        (s.pc.toNat + 1 ≤ 0xFFF ∧ dispatch s.fetchOpcode s.beginCycle.advancePc = .fault f)) := by
  unfold step at h
  split at h
  · cases h
  · next hi =>
    refine ⟨by simpa using hi, ?_⟩
    split at h
    · next hf =>
      refine .inl ⟨by simpa [State.fetchFaults] using hf, ?_⟩
      simpa [raise, eq_comm] using h
    · next hf => exact .inr ⟨by simpa [State.fetchFaults] using hf, thenTick_fault.mp h⟩

/-- A step that can fetch is its dispatch and then the tick. -/
theorem step_of_fetch {s : State} (hi : s.initialized = true) (hp : s.pc.toNat + 1 ≤ 0xFFF) :
    step s = thenTick (dispatch s.fetchOpcode s.beginCycle.advancePc) := by
  simp [step, hi, State.fetchFaults]; omega

/-- The dispatch is one instruction's meaning, or the unknown-opcode no-op. -/
theorem dispatch_cases (op : Word) (s : State) :
    (∃ i, decode op = .ok i ∧ dispatch op s = exec i s) ∨
      ∃ bad, decode op = .error (.unknownOpcode bad) ∧ dispatch op s = .next (s.emit (.unknownOpcode bad)) := by
  unfold dispatch
  split
  · next i h => exact .inl ⟨i, h, rfl⟩
  · next bad h => exact .inr ⟨bad, h, rfl⟩

end Sys2Proof.Machine
end

