-- ==== Sys2Proof/Laws/Control.lean ====
section
/-! SUPPORT. What return and call do to the stack, in terms of the slot they use (`41_control.md` R121, R123). -/

namespace Sys2Proof.Machine

/-- With `k + 1` slots used, SP - 1 names slot `k`. -/
theorem sp_sub_one {sp : Byte} {k : Nat} (h : sp.toNat = k + 1) : sp - 1 = BitVec.ofNat 8 k := by
  apply BitVec.eq_of_toNat_eq
  have := sp.isLt
  simp [h]; omega

/-- A return with `k + 1` slots used looks at slot `k`. -/
theorem execRet_eq (s : State) (k : Fin 16) (h : s.sp.toNat = k.val + 1) :
    execRet s =
      if s.inWorkspace s.stack[k].toNat then
        .next { s with pc := s.stack[k], sp := BitVec.ofNat 8 k.val, stack := s.stack.set k.val 0 }
      else .fault (.segmentationFault s.stack[k] { s.noSignal with sp := BitVec.ofNat 8 k.val }) := by
  have hne : s.sp ≠ 0 := by intro h0; simp [h0] at h
  have hk : (BitVec.ofNat 8 k.val).toNat = k.val := by have := k.isLt; simp; omega
  unfold execRet
  rw [if_neg hne]
  have e : s.decSp = { s with sp := BitVec.ofNat 8 k.val } := by rw [← sp_sub_one h]; rfl
  simp only [e, State.clearSlot, State.setPc, hk, Fin.is_lt, dif_pos]
  rfl

/-- With SP above 16 a return is refused. -/
theorem execRet_illegal (s : State) (h : 16 < s.sp.toNat) : execRet s = .refused .illegalStackPointer := by
  have hlt := s.sp.isLt
  have hne : s.sp ≠ 0 := by intro h0; simp [h0] at h
  have e : s.decSp.sp.toNat = s.sp.toNat - 1 := by
    show (s.sp - 1).toNat = _
    rw [sp_sub_one (k := s.sp.toNat - 1) (by omega)]; simp; omega
  unfold execRet
  rw [if_neg hne]
  simp only [e]
  rw [dif_neg (by omega)]

/-- A call into the workspace with a slot free pushes PC. -/
theorem execCall_eq (nnn : Addr) (s : State) (hw : s.inWorkspace nnn.toNat = true) (h : s.sp.toNat < 16) :
    execCall nnn s = .next { s with pc := zextAddr nnn, sp := s.sp + 1, stack := s.stack.set s.sp.toNat s.pc } := by
  have hne : s.sp ≠ 16 := by intro h0; simp [h0] at h
  unfold execCall
  rw [if_pos hw, if_neg hne, dif_pos h]
  rfl

/-- A call that answers a next state had its target in the workspace and a slot free. -/
theorem execCall_next {nnn : Addr} {s t : State} (h : execCall nnn s = .next t) :
    s.inWorkspace nnn.toNat = true ∧ ∃ h16 : s.sp.toNat < 16,
      t = { s with pc := zextAddr nnn, sp := s.sp + 1, stack := s.stack.set s.sp.toNat s.pc } := by
  unfold execCall at h
  split at h
  · next hw =>
    split at h
    · exact (raise_ne_next _ _ _ h).elim
    · split at h
      · next h16 => cases h; exact ⟨hw, h16, rfl⟩
      · cases h
  · exact (raise_ne_next _ _ _ h).elim

/-- A return that answers a next state had between 1 and 16 slots used. -/
theorem execRet_next {s t : State} (h : execRet s = .next t) : ∃ k : Fin 16, s.sp.toNat = k.val + 1 := by
  by_cases h0 : s.sp = 0
  · simp [execRet, h0, raise] at h
  · by_cases h16 : 16 < s.sp.toNat
    · rw [execRet_illegal s h16] at h; cases h
    · have : s.sp.toNat ≠ 0 := fun e => h0 (BitVec.eq_of_toNat_eq e)
      exact ⟨⟨s.sp.toNat - 1, by omega⟩, by simp; omega⟩

theorem zextAddr_toNat (nnn : Addr) : (zextAddr nnn).toNat = nnn.toNat := by
  have := nnn.isLt
  simp [zextAddr]; omega

/-- A 12-bit target is in the workspace exactly when it is not below it. -/
theorem inWorkspace_addr (s : State) (nnn : Addr) : s.inWorkspace nnn.toNat = decide (wsStart s.config ≤ nnn.toNat) := by
  have := nnn.isLt
  simp only [State.inWorkspace, wsEnd]
  exact decide_eq_decide.mpr ⟨And.left, fun h => ⟨h, by omega⟩⟩

end Sys2Proof.Machine
end

