-- ==== Sys2Proof/Laws/Decode.lean ====
section
/-! SUPPORT. The fields of a packed opcode, and an opcode as its packed fields (`30_encoding.md` R81): what a proof about the
decoder or the encoder cites instead of working on bits. -/

namespace Sys2Proof

/-! ## Four nibbles -/

theorem nibble3_of_append (a b c d : Nibble) : BitVec.extractLsb' 12 4 (a ++ b ++ c ++ d : Word) = a := by
  ext i hi; simp; grind

theorem nibble2_of_append (a b c d : Nibble) : BitVec.extractLsb' 8 4 (a ++ b ++ c ++ d : Word) = b := by
  ext i hi; simp; grind

theorem nibble1_of_append (a b c d : Nibble) : BitVec.extractLsb' 4 4 (a ++ b ++ c ++ d : Word) = c := by
  ext i hi; simp; grind

theorem nibble0_of_append (a b c d : Nibble) : BitVec.extractLsb' 0 4 (a ++ b ++ c ++ d : Word) = d := by
  ext i hi; simp; grind

theorem nibble3_of_append_byte (a b : Nibble) (c : Byte) : BitVec.extractLsb' 12 4 (a ++ b ++ c : Word) = a := by
  ext i hi; simp; grind

theorem nibble2_of_append_byte (a b : Nibble) (c : Byte) : BitVec.extractLsb' 8 4 (a ++ b ++ c : Word) = b := by
  ext i hi; simp; grind

theorem byte0_of_append_byte (a b : Nibble) (c : Byte) : BitVec.extractLsb' 0 8 (a ++ b ++ c : Word) = c := by
  ext i hi; simp; grind

/-! ## Fields of a packed opcode -/

@[simp] theorem fieldF_packXYN (f : Nibble) (x y : RegIdx) (n : Nibble) : fieldF (packXYN f x y n) = f :=
  nibble3_of_append ..

@[simp] theorem fieldX_packXYN (f : Nibble) (x y : RegIdx) (n : Nibble) : fieldX (packXYN f x y n) = x :=
  congrArg BitVec.toFin (nibble2_of_append f (BitVec.ofFin x) (BitVec.ofFin y) n)

@[simp] theorem fieldY_packXYN (f : Nibble) (x y : RegIdx) (n : Nibble) : fieldY (packXYN f x y n) = y :=
  congrArg BitVec.toFin (nibble1_of_append f (BitVec.ofFin x) (BitVec.ofFin y) n)

@[simp] theorem fieldN_packXYN (f : Nibble) (x y : RegIdx) (n : Nibble) : fieldN (packXYN f x y n) = n :=
  nibble0_of_append ..

@[simp] theorem fieldF_packXNN (f : Nibble) (x : RegIdx) (nn : Byte) : fieldF (packXNN f x nn) = f :=
  nibble3_of_append_byte ..

@[simp] theorem fieldX_packXNN (f : Nibble) (x : RegIdx) (nn : Byte) : fieldX (packXNN f x nn) = x :=
  congrArg BitVec.toFin (nibble2_of_append_byte f (BitVec.ofFin x) nn)

@[simp] theorem fieldNN_packXNN (f : Nibble) (x : RegIdx) (nn : Byte) : fieldNN (packXNN f x nn) = nn :=
  byte0_of_append_byte ..

@[simp] theorem fieldF_packNNN (f : Nibble) (nnn : Addr) : fieldF (packNNN f nnn) = f := by
  simp only [fieldF, packNNN]; ext i hi; simp; grind

@[simp] theorem fieldNNN_packNNN (f : Nibble) (nnn : Addr) : fieldNNN (packNNN f nnn) = nnn := by
  simp only [fieldNNN, packNNN]; ext i hi; simp; grind

/-! ## An opcode as its packed fields -/

theorem packXYN_fields (op : Word) : packXYN (fieldF op) (fieldX op) (fieldY op) (fieldN op) = op := by
  show (op.extractLsb' 12 4 ++ op.extractLsb' 8 4 ++ op.extractLsb' 4 4 ++ op.extractLsb' 0 4 : Word) = op
  ext i hi; simp; grind

theorem packXNN_fields (op : Word) : packXNN (fieldF op) (fieldX op) (fieldNN op) = op := by
  show (op.extractLsb' 12 4 ++ op.extractLsb' 8 4 ++ op.extractLsb' 0 8 : Word) = op
  ext i hi; simp; grind

theorem packNNN_fields (op : Word) : packNNN (fieldF op) (fieldNNN op) = op := by
  show (op.extractLsb' 12 4 ++ op.extractLsb' 0 12 : Word) = op
  ext i hi; simp; grind

/-! ## The bytes of an opcode -/

@[simp] theorem opcodeOfBytes_high_low (op : Word) : opcodeOfBytes (opcodeHigh op) (opcodeLow op) = op := by
  show (op.extractLsb' 8 8 ++ op.extractLsb' 0 8 : Word) = op
  ext i hi; simp; grind

@[simp] theorem opcodeHigh_opcodeOfBytes (hi lo : Byte) : opcodeHigh (opcodeOfBytes hi lo) = hi := by
  simp only [opcodeHigh, opcodeOfBytes]; ext i hi; simp; grind

@[simp] theorem opcodeLow_opcodeOfBytes (hi lo : Byte) : opcodeLow (opcodeOfBytes hi lo) = lo := by
  simp only [opcodeLow, opcodeOfBytes]; ext i hi; simp; grind

/-! ## Masks -/

theorem nibble_and_ones (a : Nibble) : a &&& 15#4 = a := BitVec.and_allOnes (w := 4)

theorem byte_and_ones (a : Byte) : a &&& 255#8 = a := BitVec.and_allOnes (w := 8)

theorem nibbles_and (a b c d a' b' c' d' : Nibble) :
    ((a ++ b ++ c ++ d : Word) &&& (a' ++ b' ++ c' ++ d' : Word)) =
      ((a &&& a') ++ (b &&& b') ++ (c &&& c') ++ (d &&& d') : Word) := by
  simp only [BitVec.and_append]

@[simp] theorem packXYN_and_F00F (f : Nibble) (x y : RegIdx) (n : Nibble) :
    packXYN f x y n &&& 0xF00F#16 = packXYN f 0 0 n := by
  refine (nibbles_and f (BitVec.ofFin x) (BitVec.ofFin y) n 0xF 0 0 0xF).trans ?_
  simp [packXYN, nibbleOf, nibble_and_ones]

@[simp] theorem packXYN_and_F000 (f : Nibble) (x y : RegIdx) (n : Nibble) :
    packXYN f x y n &&& 0xF000#16 = packXYN f 0 0 0 := by
  refine (nibbles_and f (BitVec.ofFin x) (BitVec.ofFin y) n 0xF 0 0 0).trans ?_
  simp [packXYN, nibbleOf, nibble_and_ones]

theorem byte_and (a b a' b' : Nibble) (c c' : Byte) :
    ((a ++ b ++ c : Word) &&& (a' ++ b' ++ c' : Word)) = ((a &&& a') ++ (b &&& b') ++ (c &&& c') : Word) := by
  simp only [BitVec.and_append]

@[simp] theorem packXNN_and_F000 (f : Nibble) (x : RegIdx) (nn : Byte) : packXNN f x nn &&& 0xF000#16 = packXNN f 0 0 := by
  refine (byte_and f (BitVec.ofFin x) 0xF 0 nn 0).trans ?_
  simp [packXNN, nibbleOf, nibble_and_ones]

@[simp] theorem packXNN_and_F0FF (f : Nibble) (x : RegIdx) (nn : Byte) : packXNN f x nn &&& 0xF0FF#16 = packXNN f 0 nn := by
  refine (byte_and f (BitVec.ofFin x) 0xF 0 nn 0xFF).trans ?_
  simp [packXNN, nibbleOf, nibble_and_ones, byte_and_ones]

@[simp] theorem packNNN_and_F000 (f : Nibble) (nnn : Addr) : packNNN f nnn &&& 0xF000#16 = packNNN f 0 := by
  show (f ++ nnn : Word) &&& (0xF#4 ++ 0#12 : Word) = _
  simp only [BitVec.and_append]
  simp [packNNN, nibble_and_ones]

end Sys2Proof
end

