-- ==== Sys2Proof/Laws/Exec.lean ====
section
/-! SUPPORT. What an instruction can do, said once: the shape of the next state of every instruction, the state every error
leaves, and a step put together from them. Statements about the whole machine cite these instead of unfolding exec. -/

namespace Sys2Proof.Machine

/-- The instructions whose whole effect is on V, I, PC and the log. -/
def onRegistersOnly : Instr → Bool
  | .ret | .call _ | .cls | .drw _ _ _ | .ldB _ | .storeRegs _ | .ldDtVx _ | .ldStVx _ => false
  | .sys _ | .jp _ | .jpV0 _ | .seImm _ _ | .sneImm _ _ | .seReg _ _ | .sneReg _ _ => true
  | .ldImm _ _ | .addImm _ _ | .ldReg _ _ | .orReg _ _ | .andReg _ _ | .xorReg _ _ => true
  | .addReg _ _ | .subReg _ _ | .shr _ _ | .subnReg _ _ | .shl _ _ | .rnd _ _ => true
  | .ldI _ | .addI _ | .ldF _ | .loadRegs _ | .skp _ | .sknp _ | .ldVxDt _ | .ldVxK _ => true

/-- `Effect s i t`: instruction `i` can take `s` to `t`. -/
inductive Effect (s : State) : Instr → State → Prop
  /-- A return takes the top address, which is in the workspace. -/
  | ret (k : Fin 16) (used : s.sp.toNat = k.val + 1) (target : s.inWorkspace s.stack[k].toNat = true) :
      Effect s .ret { s with pc := s.stack[k], sp := BitVec.ofNat 8 k.val, stack := s.stack.set k.val 0 }
  /-- A call pushes PC into a free slot. -/
  | call (nnn : Addr) (target : s.inWorkspace nnn.toNat = true) (free : s.sp.toNat < 16) :
      Effect s (.call nnn) { s with pc := zextAddr nnn, sp := s.sp + 1, stack := s.stack.set s.sp.toNat s.pc }
  /-- A clear empties the screen. -/
  | cls : Effect s .cls (s.setFb (Vector.replicate 32 0))
  /-- A skipped draw logs. -/
  | drawSkipped (x y : RegIdx) (n : Nibble) (e : LogEvent) : Effect s (.drw x y n) (s.emit e)
  /-- A draw changes the screen and VF. -/
  | drawn (x y : RegIdx) (n : Nibble) (fb : Screen) (flag : Byte) : Effect s (.drw x y n) ((s.setFb fb).setReg regF flag)
  /-- FX33 stores bytes at I. -/
  | digits (x : RegIdx) (bs : List Byte) : Effect s (.ldB x) (s.writeBytes s.i.toNat bs)
  /-- FX55 stores bytes at I. -/
  | regsStored (x : RegIdx) (bs : List Byte) : Effect s (.storeRegs x) (s.writeBytes s.i.toNat bs)
  /-- FX15 sets DT. -/
  | dtSet (x : RegIdx) : Effect s (.ldDtVx x) (s.setDt (s.reg x))
  /-- FX18 sets ST. -/
  | stSet (x : RegIdx) : Effect s (.ldStVx x) (s.setSt (s.reg x))
  /-- Every other instruction changes V, I, PC and the log at most, and PC goes to a 12-bit address or by 2. -/
  | onRegisters (i : Instr) (t : State) (kind : onRegistersOnly i = true)
      (frame : t = { s with v := t.v, i := t.i, pc := t.pc, out := t.out })
      (pc : t.pc.toNat ≤ 0xFFF ∨ t.pc = s.pc ∨ t.pc = s.pc + 2 ∨ t.pc = s.pc - 2) : Effect s i t

/-! ## Next states -/

theorem skipIf_effect (s : State) (i : Instr) (kind : onRegistersOnly i = true) (c : Bool) : Effect s i (s.skipIf c) := by
  cases c
  · exact .onRegisters _ _ kind rfl (.inr (.inl rfl))
  · exact .onRegisters _ _ kind rfl (.inr (.inr (.inl rfl)))

theorem execRet_effect {s t : State} (h : execRet s = .next t) : Effect s .ret t := by
  obtain ⟨k, hk⟩ := execRet_next h
  rw [execRet_eq s k hk] at h
  split at h
  · next hw => cases h; exact .ret k hk hw
  · cases h

theorem execDrw_effect {x y : RegIdx} {n : Nibble} {s t : State} (h : execDrw x y n s = .next t) : Effect s (.drw x y n) t := by
  unfold execDrw at h
  by_cases hn : n = 0
  · rw [if_pos hn] at h; cases h; exact .drawSkipped ..
  · rw [if_neg hn] at h
    by_cases hs : (s.reg x).toNat ≥ 64 ∨ (s.reg y).toNat ≥ 32
    · rw [if_pos hs] at h; cases h; exact .drawSkipped ..
    · rw [if_neg hs] at h
      split at h
      · cases h; exact .drawn ..
      · exact (raise_ne_next _ _ _ h).elim

theorem execJp_effect {nnn : Addr} {s t : State} (h : execJp nnn s = .next t) : Effect s (.jp nnn) t := by
  unfold execJp at h
  split at h
  · exact (raise_ne_next _ _ _ h).elim
  · cases h
    exact .onRegisters _ _ rfl rfl (.inl (by have := nnn.isLt; simp only [State.setPc_pc, zextAddr_toNat]; omega))

theorem execJpV0_effect {nnn : Addr} {s t : State} (h : execJpV0 nnn s = .next t) : Effect s (.jpV0 nnn) t := by
  unfold execJpV0 at h
  cases h
  refine .onRegisters _ _ rfl ?_ (.inl ?_)
  · split <;> rfl
  · simp only [State.setPc_pc, BitVec.toNat_ofNat]; omega

theorem execAddI_effect {x : RegIdx} {s t : State} (h : execAddI x s = .next t) : Effect s (.addI x) t := by
  unfold execAddI at h
  cases h
  refine .onRegisters _ _ rfl ?_ (.inr (.inl ?_)) <;> (split <;> rfl)

theorem execLdB_effect {x : RegIdx} {s t : State} (h : execLdB x s = .next t) : Effect s (.ldB x) t := by
  unfold execLdB at h
  split at h
  · cases h; exact .digits ..
  · exact (raise_ne_next _ _ _ h).elim

theorem execStoreRegs_effect {x : RegIdx} {s t : State} (h : execStoreRegs x s = .next t) : Effect s (.storeRegs x) t := by
  unfold execStoreRegs at h
  split at h
  · cases h; exact .regsStored ..
  · exact (raise_ne_next _ _ _ h).elim

theorem execLoadRegs_effect {x : RegIdx} {s t : State} (h : execLoadRegs x s = .next t) : Effect s (.loadRegs x) t := by
  unfold execLoadRegs at h
  split at h
  · cases h; exact .onRegisters _ _ rfl rfl (.inr (.inl rfl))
  · exact (raise_ne_next _ _ _ h).elim

theorem execSkp_effect {x : RegIdx} {s t : State} (h : execSkp x s = .next t) : Effect s (.skp x) t := by
  unfold execSkp at h
  split at h
  · cases h; exact skipIf_effect s _ rfl _
  · exact (raise_ne_next _ _ _ h).elim

theorem execSknp_effect {x : RegIdx} {s t : State} (h : execSknp x s = .next t) : Effect s (.sknp x) t := by
  unfold execSknp at h
  split at h
  · cases h; exact skipIf_effect s _ rfl _
  · exact (raise_ne_next _ _ _ h).elim

theorem execLdVxK_effect {x : RegIdx} {s t : State} (h : execLdVxK x s = .next t) : Effect s (.ldVxK x) t := by
  unfold execLdVxK at h
  split at h
  · split at h <;> cases h
    · exact .onRegisters _ _ rfl rfl (.inr (.inl rfl))
    · exact .onRegisters _ _ rfl rfl (.inr (.inr (.inr rfl)))
  · cases h; exact .onRegisters _ _ rfl rfl (.inr (.inl rfl))

/-- What any instruction did when it answers a next state. -/
theorem exec_effect {i : Instr} {s t : State} (h : exec i s = .next t) : Effect s i t := by
  cases i with
  | ret => exact execRet_effect h
  | call nnn => obtain ⟨hw, h16, rfl⟩ := execCall_next h; exact .call nnn hw h16
  | cls => cases h; exact .cls
  | drw x y n => exact execDrw_effect h
  | ldB x => exact execLdB_effect h
  | storeRegs x => exact execStoreRegs_effect h
  | ldDtVx x => cases h; exact .dtSet x
  | ldStVx x => cases h; exact .stSet x
  | jp nnn => exact execJp_effect h
  | jpV0 nnn => exact execJpV0_effect h
  | addI x => exact execAddI_effect h
  | loadRegs x => exact execLoadRegs_effect h
  | skp x => exact execSkp_effect h
  | sknp x => exact execSknp_effect h
  | ldVxK x => exact execLdVxK_effect h
  | seImm x nn => cases h; exact skipIf_effect s _ rfl _
  | sneImm x nn => cases h; exact skipIf_effect s _ rfl _
  | seReg x y => cases h; exact skipIf_effect s _ rfl _
  | sneReg x y => cases h; exact skipIf_effect s _ rfl _
  | sys | ldImm | addImm | ldReg | orReg | andReg | xorReg | addReg | subReg | shr | subnReg | shl | ldI | rnd | ldVxDt | ldF =>
    cases h; exact .onRegisters _ _ rfl rfl (.inr (.inl rfl))

/-- No instruction changes the instance's parameters, the initialized mark, the keypad or the draw counter. -/
theorem Effect.fixed {s t : State} {i : Instr} (h : Effect s i t) :
    t.config = s.config ∧ t.initialized = s.initialized ∧ t.key = s.key ∧ t.drawCount = s.drawCount := by
  cases h with
  | onRegisters i t kind frame pc => rw [frame]; exact ⟨rfl, rfl, rfl, rfl⟩
  | digits x bs => simp
  | regsStored x bs => simp
  | ret | call | cls | drawSkipped | drawn | dtSet | stSet => exact ⟨rfl, rfl, rfl, rfl⟩

/-! ## The two sums that may wrap -/

theorem execJpV0_wrap {nnn : Addr} {s : State} (h : nnn.toNat + (s.reg reg0).toNat > 0xFFF) :
    execJpV0 nnn s = .next ((s.emit (.jumpWrap (packNNN 0xB nnn) (nnn.toNat + (s.reg reg0).toNat))).setPc
      (BitVec.ofNat 16 ((nnn.toNat + (s.reg reg0).toNat) % 0x1000))) := by
  simp only [execJpV0, if_pos h]

theorem execJpV0_noWrap {nnn : Addr} {s : State} (h : ¬ nnn.toNat + (s.reg reg0).toNat > 0xFFF) :
    execJpV0 nnn s = .next (s.setPc (BitVec.ofNat 16 ((nnn.toNat + (s.reg reg0).toNat) % 0x1000))) := by
  simp only [execJpV0, if_neg h]

theorem execAddI_wrap {x : RegIdx} {s : State} (h : s.i.toNat + (s.reg x).toNat > 0xFFFF) :
    execAddI x s = .next ((s.emit (.indexWrap (s.i.toNat + (s.reg x).toNat))).setI
      (BitVec.ofNat 16 (s.i.toNat + (s.reg x).toNat))) := by
  simp only [execAddI, if_pos h]

theorem execAddI_noWrap {x : RegIdx} {s : State} (h : ¬ s.i.toNat + (s.reg x).toNat > 0xFFFF) :
    execAddI x s = .next (s.setI (BitVec.ofNat 16 (s.i.toNat + (s.reg x).toNat))) := by
  simp only [execAddI, if_neg h]

/-! ## The span and index tests, either way -/

theorem execLdB_fits {x : RegIdx} {s : State} (h : spanFits s.i 2 = true) :
    execLdB x s = .next (s.writeBytes s.i.toNat (decimalDigits (s.reg x))) := if_pos h

theorem execLdB_past {x : RegIdx} {s : State} (h : ¬ spanFits s.i 2 = true) :
    execLdB x s = raise (.segmentationFault s.i) s := if_neg h

theorem execStoreRegs_fits {x : RegIdx} {s : State} (h : spanFits s.i x.val = true) :
    execStoreRegs x s = .next (s.writeBytes s.i.toNat (s.regsUpTo x)) := if_pos h

theorem execStoreRegs_past {x : RegIdx} {s : State} (h : ¬ spanFits s.i x.val = true) :
    execStoreRegs x s = raise (.segmentationFault s.i) s := if_neg h

theorem execLoadRegs_fits {x : RegIdx} {s : State} (h : spanFits s.i x.val = true) :
    execLoadRegs x s = .next (s.setV (setRegsFrom s.v 0 (s.readBytes s.i.toNat (x.val + 1)))) := if_pos h

theorem execLoadRegs_past {x : RegIdx} {s : State} (h : ¬ spanFits s.i x.val = true) :
    execLoadRegs x s = raise (.segmentationFault s.i) s := if_neg h

theorem execSkp_key {x : RegIdx} {s : State} (h : (s.reg x).toNat < 16) :
    execSkp x s = .next (s.skipIf s.key[(s.reg x).toNat]) := dif_pos h

theorem execSkp_noKey {x : RegIdx} {s : State} (h : ¬ (s.reg x).toNat < 16) :
    execSkp x s = raise (.indexOutOfBounds (s.reg x)) s := dif_neg h

theorem execSknp_key {x : RegIdx} {s : State} (h : (s.reg x).toNat < 16) :
    execSknp x s = .next (s.skipIf (!s.key[(s.reg x).toNat])) := dif_pos h

theorem execSknp_noKey {x : RegIdx} {s : State} (h : ¬ (s.reg x).toNat < 16) :
    execSknp x s = raise (.indexOutOfBounds (s.reg x)) s := dif_neg h

/-! ## Errors -/

/-- What any instruction leaves when it raises an error: the state it started from, with SP one lower where a return rejected its
address. -/
theorem exec_fault_resume {i : Instr} {s : State} {f : Fault} (h : exec i s = .fault f) :
    (f.resume = s.noSignal ∧ (i = .ret → s.sp = 0)) ∨
      (i = .ret ∧ s.sp ≠ 0 ∧ f.resume = { s.noSignal with sp := s.sp - 1 }) := by
  cases i with
  | ret =>
    change execRet s = _ at h
    unfold execRet at h
    split at h
    · next h0 => cases h; exact .inl ⟨rfl, fun _ => h0⟩
    · next h0 =>
      dsimp only at h
      split at h
      · split at h
        · cases h
        · cases h; exact .inr ⟨rfl, h0, rfl⟩
      · cases h
  | jp | call | drw | skp | sknp | ldB | storeRegs | loadRegs | ldVxK =>
    simp only [exec, execJp, execCall, execDrw, execSkp, execSknp, execLdB, execStoreRegs, execLoadRegs, execLdVxK, raise] at h
    repeat' split at h
    all_goals cases h
    all_goals exact .inl ⟨rfl, by simp⟩
  | sys | cls | seImm | sneImm | seReg | sneReg | jpV0 | ldImm | addImm | ldReg | orReg | andReg | xorReg | addReg | subReg | shr
  | subnReg | shl | rnd | ldI | addI | ldF | ldVxDt | ldDtVx | ldStVx => cases h

/-! ## A step -/

@[simp] theorem beginCycle_advancePc (s : State) : s.beginCycle.advancePc = s.fetched := rfl

theorem fetchOpcode_eq (s : State) : s.fetchOpcode = s.opcodeAtPc := rfl

/-- The post-fetch PC does not wrap. -/
theorem fetched_pc_toNat {s : State} (h : s.CanFetch) : s.fetched.pc.toNat = s.pc.toNat + 2 := by
  have := h.2
  simp [State.fetched, BitVec.toNat_add]; omega

/-- A step that answers a next state fetched, then ran an instruction or logged an unknown opcode, then ticked. -/
theorem step_next_effect {s t : State} (h : step s = .next t) :
    s.CanFetch ∧ ∃ u, t = u.tick ∧
      ((∃ i, decode s.opcodeAtPc = .ok i ∧ Effect s.fetched i u) ∨
        (∃ bad, decode s.opcodeAtPc = .error (.unknownOpcode bad) ∧ u = s.fetched.emit (.unknownOpcode bad))) := by
  obtain ⟨hi, hp, u, hd, ht⟩ := step_next_cases h
  refine ⟨⟨hi, hp⟩, u, ht, ?_⟩
  rw [beginCycle_advancePc, fetchOpcode_eq] at hd
  rcases dispatch_cases s.opcodeAtPc s.fetched with ⟨i, h1, h2⟩ | ⟨bad, h1, h2⟩
  · exact .inl ⟨i, h1, exec_effect (h2 ▸ hd)⟩
  · rw [h2] at hd; cases hd; exact .inr ⟨bad, h1, rfl⟩

/-- A step that answers an error failed its fetch or ran an instruction that raised it. -/
theorem step_fault_exec {s : State} {f : Fault} (h : step s = .fault f) :
    s.initialized = true ∧
      ((0xFFF < s.pc.toNat + 1 ∧ f = .segmentationFault s.pc s.beginCycle.noSignal) ∨
        (s.pc.toNat + 1 ≤ 0xFFF ∧ ∃ i, decode s.opcodeAtPc = .ok i ∧ exec i s.fetched = .fault f)) := by
  obtain ⟨hi, hf | ⟨hp, hd⟩⟩ := step_fault_cases h
  · exact ⟨hi, .inl hf⟩
  · refine ⟨hi, .inr ⟨hp, ?_⟩⟩
    rw [beginCycle_advancePc, fetchOpcode_eq] at hd
    rcases dispatch_cases s.opcodeAtPc s.fetched with ⟨i, h1, h2⟩ | ⟨bad, h1, h2⟩
    · exact ⟨i, h1, h2 ▸ hd⟩
    · rw [h2] at hd; cases hd

/-- A step from a state that can fetch runs what the bytes at PC decode to. -/
theorem step_of_decode {s : State} {i : Instr} (h : s.CanFetch) (hd : decode s.opcodeAtPc = .ok i) :
    step s = thenTick (exec i s.fetched) := by
  rw [step_of_fetch h.1 h.2, beginCycle_advancePc, fetchOpcode_eq]
  simp only [dispatch, hd]

end Sys2Proof.Machine
end

