-- ==== Sys2Proof/Laws/PerInstr.lean ====
section
/-! SUPPORT. Facts of every instruction as syntax, one lemma for each constructor. -/

namespace Sys2Proof.Laws.SelectsItsRow

/-- An instruction's opcode has the fixed bits of its row of the opcode map (`30_encoding.md` R84). -/
def Statement (i : Sys2Proof.Instr) : Prop := i.row.selects (Sys2Proof.encode i) = true

theorem sys (nnn : Sys2Proof.Addr) : Statement (.sys nnn) := by
  simp [Statement, OpcodeRow.selects, Instr.row, encode]; decide

theorem cls : Statement .cls := by
  unfold Statement; decide

theorem ret : Statement .ret := by
  unfold Statement; decide

theorem jp (nnn : Sys2Proof.Addr) : Statement (.jp nnn) := by
  simp [Statement, OpcodeRow.selects, Instr.row, encode]; decide

theorem call (nnn : Sys2Proof.Addr) : Statement (.call nnn) := by
  simp [Statement, OpcodeRow.selects, Instr.row, encode]; decide

theorem seImm (x : Sys2Proof.RegIdx) (nn : Sys2Proof.Byte) : Statement (.seImm x nn) := by
  simp [Statement, OpcodeRow.selects, Instr.row, encode]; decide

theorem sneImm (x : Sys2Proof.RegIdx) (nn : Sys2Proof.Byte) : Statement (.sneImm x nn) := by
  simp [Statement, OpcodeRow.selects, Instr.row, encode]; decide

theorem seReg (x : Sys2Proof.RegIdx) (y : Sys2Proof.RegIdx) : Statement (.seReg x y) := by
  simp [Statement, OpcodeRow.selects, Instr.row, encode]; decide

theorem ldImm (x : Sys2Proof.RegIdx) (nn : Sys2Proof.Byte) : Statement (.ldImm x nn) := by
  simp [Statement, OpcodeRow.selects, Instr.row, encode]; decide

theorem addImm (x : Sys2Proof.RegIdx) (nn : Sys2Proof.Byte) : Statement (.addImm x nn) := by
  simp [Statement, OpcodeRow.selects, Instr.row, encode]; decide

theorem ldReg (x : Sys2Proof.RegIdx) (y : Sys2Proof.RegIdx) : Statement (.ldReg x y) := by
  simp [Statement, OpcodeRow.selects, Instr.row, encode]; decide

theorem orReg (x : Sys2Proof.RegIdx) (y : Sys2Proof.RegIdx) : Statement (.orReg x y) := by
  simp [Statement, OpcodeRow.selects, Instr.row, encode]; decide

theorem andReg (x : Sys2Proof.RegIdx) (y : Sys2Proof.RegIdx) : Statement (.andReg x y) := by
  simp [Statement, OpcodeRow.selects, Instr.row, encode]; decide

theorem xorReg (x : Sys2Proof.RegIdx) (y : Sys2Proof.RegIdx) : Statement (.xorReg x y) := by
  simp [Statement, OpcodeRow.selects, Instr.row, encode]; decide

theorem addReg (x : Sys2Proof.RegIdx) (y : Sys2Proof.RegIdx) : Statement (.addReg x y) := by
  simp [Statement, OpcodeRow.selects, Instr.row, encode]; decide

theorem subReg (x : Sys2Proof.RegIdx) (y : Sys2Proof.RegIdx) : Statement (.subReg x y) := by
  simp [Statement, OpcodeRow.selects, Instr.row, encode]; decide

theorem shr (x : Sys2Proof.RegIdx) (y : Sys2Proof.RegIdx) : Statement (.shr x y) := by
  simp [Statement, OpcodeRow.selects, Instr.row, encode]; decide

theorem subnReg (x : Sys2Proof.RegIdx) (y : Sys2Proof.RegIdx) : Statement (.subnReg x y) := by
  simp [Statement, OpcodeRow.selects, Instr.row, encode]; decide

theorem shl (x : Sys2Proof.RegIdx) (y : Sys2Proof.RegIdx) : Statement (.shl x y) := by
  simp [Statement, OpcodeRow.selects, Instr.row, encode]; decide

theorem sneReg (x : Sys2Proof.RegIdx) (y : Sys2Proof.RegIdx) : Statement (.sneReg x y) := by
  simp [Statement, OpcodeRow.selects, Instr.row, encode]; decide

theorem ldI (nnn : Sys2Proof.Addr) : Statement (.ldI nnn) := by
  simp [Statement, OpcodeRow.selects, Instr.row, encode]; decide

theorem jpV0 (nnn : Sys2Proof.Addr) : Statement (.jpV0 nnn) := by
  simp [Statement, OpcodeRow.selects, Instr.row, encode]; decide

theorem rnd (x : Sys2Proof.RegIdx) (nn : Sys2Proof.Byte) : Statement (.rnd x nn) := by
  simp [Statement, OpcodeRow.selects, Instr.row, encode]; decide

theorem drw (x : Sys2Proof.RegIdx) (y : Sys2Proof.RegIdx) (n : Sys2Proof.Nibble) : Statement (.drw x y n) := by
  simp [Statement, OpcodeRow.selects, Instr.row, encode]; decide

theorem skp (x : Sys2Proof.RegIdx) : Statement (.skp x) := by
  simp [Statement, OpcodeRow.selects, Instr.row, encode]; decide

theorem sknp (x : Sys2Proof.RegIdx) : Statement (.sknp x) := by
  simp [Statement, OpcodeRow.selects, Instr.row, encode]; decide

theorem ldVxDt (x : Sys2Proof.RegIdx) : Statement (.ldVxDt x) := by
  simp [Statement, OpcodeRow.selects, Instr.row, encode]; decide

theorem ldVxK (x : Sys2Proof.RegIdx) : Statement (.ldVxK x) := by
  simp [Statement, OpcodeRow.selects, Instr.row, encode]; decide

theorem ldDtVx (x : Sys2Proof.RegIdx) : Statement (.ldDtVx x) := by
  simp [Statement, OpcodeRow.selects, Instr.row, encode]; decide

theorem ldStVx (x : Sys2Proof.RegIdx) : Statement (.ldStVx x) := by
  simp [Statement, OpcodeRow.selects, Instr.row, encode]; decide

theorem addI (x : Sys2Proof.RegIdx) : Statement (.addI x) := by
  simp [Statement, OpcodeRow.selects, Instr.row, encode]; decide

theorem ldF (x : Sys2Proof.RegIdx) : Statement (.ldF x) := by
  simp [Statement, OpcodeRow.selects, Instr.row, encode]; decide

theorem ldB (x : Sys2Proof.RegIdx) : Statement (.ldB x) := by
  simp [Statement, OpcodeRow.selects, Instr.row, encode]; decide

theorem storeRegs (x : Sys2Proof.RegIdx) : Statement (.storeRegs x) := by
  simp [Statement, OpcodeRow.selects, Instr.row, encode]; decide

theorem loadRegs (x : Sys2Proof.RegIdx) : Statement (.loadRegs x) := by
  simp [Statement, OpcodeRow.selects, Instr.row, encode]; decide

end Sys2Proof.Laws.SelectsItsRow
end

