-- ==== Sys2Proof/Tests/Slice0.lean ====
section
/-! SUPPORT. The model's own tests. Expected values come from the spec's vectors (`95_test_vectors.md`, named L1-n and A1 to G6
there) and from its encoding table (`30_encoding.md` R84); after them, a witness for the hypotheses of every obligation. -/

namespace Sys2Proof.Tests

open Sys2Proof Sys2Proof.Machine

/-! ## Builders and probes -/

/-- The state after `Initialize` in standard mode with PC at `a` and two bytes stored there. -/
def start (a : Nat) (hi lo : Byte) : State := (State.reset.writeBytes a [hi, lo]).setPc (BitVec.ofNat 16 a)

/-- The same with two registers set. -/
def startWith (hi lo : Byte) (x : RegIdx) (b : Byte) (y : RegIdx) (c : Byte) : State :=
  ((start 0x200 hi lo).setReg x b).setReg y c

/-- A state with `n` slots used, the top one holding `w`. -/
def stacked (s : State) (n : Nat) (w : Word) : State :=
  { s with sp := BitVec.ofNat 8 n, stack := s.stack.setIfInBounds (n - 1) w }

/-- The state of a next outcome meets `p`. -/
def after (r : Result) (p : State → Bool) : Bool :=
  match r with
  | .next t => p t
  | .fault _ => false
  | .refused _ => false

/-- A fault with this code and info whose state meets `p`. -/
def fails (r : Result) (code : Nat) (info : Option Nat) (p : State → Bool) : Bool :=
  match r with
  | .next _ => false
  | .fault f => f.code == code && f.info == info && p f.resume
  | .refused _ => false

theorem next_of_after {r : Result} {p : State → Bool} (h : after r p = true) : ∃ t, r = .next t := by
  cases r with
  | next t => exact ⟨t, rfl⟩
  | fault f => cases h
  | refused r => cases h

/-! ## Well-formedness -/

theorem test_wellFormed_refuses_sys_0E0 : (Instr.sys 0x0E0).wellFormed = false := by decide

theorem test_wellFormed_refuses_sys_0EE : (Instr.sys 0x0EE).wellFormed = false := by decide

theorem test_wellFormed_accepts : (Instr.sys 0x0E1).wellFormed = true ∧ (Instr.drw 15 15 15).wellFormed = true := by decide

/-! ## Decoding, the words written out field by field from R84 -/

theorem test_decode_family_0 :
    decode (0b0000#4 ++ 0b0001#4 ++ 0b0010#4 ++ 0b0011#4) = .ok (.sys 0x123) ∧
    decode (0b0000#4 ++ 0b0000#4 ++ 0b1110#4 ++ 0b0000#4) = .ok .cls ∧
    decode (0b0000#4 ++ 0b0000#4 ++ 0b1110#4 ++ 0b1110#4) = .ok .ret ∧
    decode (0b0000#4 ++ 0b0000#4 ++ 0b0000#4 ++ 0b0000#4) = .ok (.sys 0) := by decide

theorem test_decode_jumps :
    decode (0b0001#4 ++ 0b0010#4 ++ 0b0011#4 ++ 0b0100#4) = .ok (.jp 0x234) ∧
    decode (0b0010#4 ++ 0b0010#4 ++ 0b0000#4 ++ 0b1000#4) = .ok (.call 0x208) ∧
    decode (0b1011#4 ++ 0b1111#4 ++ 0b1111#4 ++ 0b1000#4) = .ok (.jpV0 0xFF8) := by decide

theorem test_decode_skips :
    decode (0b0011#4 ++ 0b0011#4 ++ 0b0100#4 ++ 0b0010#4) = .ok (.seImm 3 0x42) ∧
    decode (0b0100#4 ++ 0b0011#4 ++ 0b0100#4 ++ 0b0010#4) = .ok (.sneImm 3 0x42) ∧
    decode (0b0101#4 ++ 0b0001#4 ++ 0b0010#4 ++ 0b0000#4) = .ok (.seReg 1 2) ∧
    decode (0b1001#4 ++ 0b0001#4 ++ 0b0010#4 ++ 0b0000#4) = .ok (.sneReg 1 2) := by decide

theorem test_decode_immediates :
    decode (0b0110#4 ++ 0b1010#4 ++ 0b0010#4 ++ 0b1011#4) = .ok (.ldImm 10 0x2B) ∧
    decode (0b0111#4 ++ 0b1111#4 ++ 0b0000#4 ++ 0b0011#4) = .ok (.addImm 15 0x03) ∧
    decode (0b1100#4 ++ 0b0011#4 ++ 0b0000#4 ++ 0b1111#4) = .ok (.rnd 3 0x0F) ∧
    decode (0b1010#4 ++ 0b0100#4 ++ 0b0000#4 ++ 0b0001#4) = .ok (.ldI 0x401) := by decide

theorem test_decode_family_8 :
    decode (0b1000#4 ++ 0b0001#4 ++ 0b0010#4 ++ 0b0000#4) = .ok (.ldReg 1 2) ∧
    decode (0b1000#4 ++ 0b0001#4 ++ 0b0010#4 ++ 0b0001#4) = .ok (.orReg 1 2) ∧
    decode (0b1000#4 ++ 0b0001#4 ++ 0b0010#4 ++ 0b0010#4) = .ok (.andReg 1 2) ∧
    decode (0b1000#4 ++ 0b0001#4 ++ 0b0010#4 ++ 0b0011#4) = .ok (.xorReg 1 2) ∧
    decode (0b1000#4 ++ 0b0001#4 ++ 0b0010#4 ++ 0b0100#4) = .ok (.addReg 1 2) ∧
    decode (0b1000#4 ++ 0b0001#4 ++ 0b0010#4 ++ 0b0101#4) = .ok (.subReg 1 2) ∧
    decode (0b1000#4 ++ 0b0001#4 ++ 0b0010#4 ++ 0b0110#4) = .ok (.shr 1 2) ∧
    decode (0b1000#4 ++ 0b0001#4 ++ 0b0010#4 ++ 0b0111#4) = .ok (.subnReg 1 2) ∧
    decode (0b1000#4 ++ 0b0001#4 ++ 0b0010#4 ++ 0b1110#4) = .ok (.shl 1 2) := by decide

theorem test_decode_draw_and_keys :
    decode (0b1101#4 ++ 0b0001#4 ++ 0b0010#4 ++ 0b0101#4) = .ok (.drw 1 2 5) ∧
    decode (0b1110#4 ++ 0b0010#4 ++ 0b1001#4 ++ 0b1110#4) = .ok (.skp 2) ∧
    decode (0b1110#4 ++ 0b0010#4 ++ 0b1010#4 ++ 0b0001#4) = .ok (.sknp 2) := by decide

theorem test_decode_family_F :
    decode (0b1111#4 ++ 0b0001#4 ++ 0b0000#4 ++ 0b0111#4) = .ok (.ldVxDt 1) ∧
    decode (0b1111#4 ++ 0b0001#4 ++ 0b0000#4 ++ 0b1010#4) = .ok (.ldVxK 1) ∧
    decode (0b1111#4 ++ 0b0001#4 ++ 0b0001#4 ++ 0b0101#4) = .ok (.ldDtVx 1) ∧
    decode (0b1111#4 ++ 0b0001#4 ++ 0b0001#4 ++ 0b1000#4) = .ok (.ldStVx 1) ∧
    decode (0b1111#4 ++ 0b0001#4 ++ 0b0001#4 ++ 0b1110#4) = .ok (.addI 1) ∧
    decode (0b1111#4 ++ 0b0001#4 ++ 0b0010#4 ++ 0b1001#4) = .ok (.ldF 1) ∧
    decode (0b1111#4 ++ 0b0001#4 ++ 0b0011#4 ++ 0b0011#4) = .ok (.ldB 1) ∧
    decode (0b1111#4 ++ 0b0001#4 ++ 0b0101#4 ++ 0b0101#4) = .ok (.storeRegs 1) ∧
    decode (0b1111#4 ++ 0b0001#4 ++ 0b0110#4 ++ 0b0101#4) = .ok (.loadRegs 1) := by decide

/-- R85, one of each group. -/
theorem test_decode_unknown :
    decode 0x5011 = .error (.unknownOpcode 0x5011) ∧ decode 0x8008 = .error (.unknownOpcode 0x8008) ∧
    decode 0x9011 = .error (.unknownOpcode 0x9011) ∧ decode 0xE09F = .error (.unknownOpcode 0xE09F) ∧
    decode 0xF000 = .error (.unknownOpcode 0xF000) := by decide

/-- R60, R80: the byte at the lower address is the high one, and the rest is handed back. -/
theorem test_decode_bytes : decodeBytes [0xA4, 0x00, 0x60] = some (.ok (.ldI 0x400), [0x60]) ∧ decodeBytes [0xA4] = none := by
  decide

/-- A table word is laid out high byte first. -/
theorem test_decode_table_word : decodeTableWord 16 0x6A2B = some (.ldImm 10 0x2B) ∧ decodeTableWord 16 0x5011 = none := by
  decide

/-! ## One cycle -/

/-- A1. -/
theorem test_cycle_unknown_is_a_noop :
    after (step (start 0x200 0x58 0x31)) (fun t => t.pc == 0x202 && t.out.log == [.unknownOpcode 0x5831]) = true := by decide

/-- A2: PC stays. -/
theorem test_cycle_fetch_fault :
    fails (step (State.reset.setPc 0xFFF)) 1 (some 0xFFF) (fun t => t.pc == 0xFFF) = true := by decide

/-- A5: signals look at the timers before the tick. -/
theorem test_cycle_tick :
    after (step (((start 0x200 0x12 0x00).setDt 1).setSt 3))
      (fun t => t.dt == 0 && t.st == 2 && t.out.delayExpired && t.out.beep && !t.out.soundExpired) = true := by decide

/-- A8: an error ends the cycle without a tick. -/
theorem test_cycle_error_has_no_tick :
    fails (step ((start 0x200 0x00 0xEE).setDt 5)) 3 none (fun t => t.dt == 5 && t.pc == 0x202) = true := by decide

/-- G6. -/
theorem test_cycle_needs_initialize : step (State.construct defaultConfig) = .refused .notInitialized := rfl

/-- The host's word runs as the first instruction after reset. -/
theorem test_fetch_word :
    after (step (State.reset.withFetchWord 16 0x6A2B)) (fun t => t.reg 10 == 0x2B && t.pc == 0x202) = true := by decide

/-- R200: the codes of Ok, of a segmentation fault and of an empty stack, and a refused cycle with none. -/
theorem test_result_codes :
    resultCode (step (start 0x200 0x58 0x31)) = some 0 ∧ resultCode (step (State.reset.setPc 0xFFF)) = some 1 ∧
    resultCode (step (start 0x200 0x00 0xEE)) = some 3 ∧
    resultCode (step (State.construct defaultConfig)) = none := ⟨rfl, rfl, rfl, rfl⟩

/-- R200: the codes of a full stack and of a key index above 15. -/
theorem test_result_codes_2_and_4 :
    resultCode (step (stacked (start 0x200 0x2F 0xFF) 16 0x202)) = some 2 ∧
    resultCode (step (startWith 0xE0 0x9E 0 0x10 1 0)) = some 4 := ⟨rfl, rfl⟩

/-! ## Control transfer -/

/-- B1. -/
theorem test_sys :
    after (step (start 0x200 0x01 0x23)) (fun t => t.pc == 0x202 && t.out.log == [.machineCodeCall 0x0123]) = true := by decide

/-- B12: the slot is cleared. -/
theorem test_ret :
    after (step (stacked (start 0x30A 0x00 0xEE) 1 0x206)) (fun t => t.pc == 0x206 && t.sp == 0 && t.stack[0] == 0) = true := by
  decide

/-- B13: SP is decremented and the slot kept. -/
theorem test_ret_outside_workspace :
    fails (step (stacked (start 0x200 0x00 0xEE) 1 0x1F0)) 1 (some 0x1F0)
      (fun t => t.sp == 0 && t.stack[0] == 0x1F0 && t.pc == 0x202) = true := by decide

/-- B2. -/
theorem test_jp : after (step (start 0x200 0x12 0x34)) (fun t => t.pc == 0x234) = true := by decide

/-- B10: the pushed PC can be 0x1000. -/
theorem test_call :
    after (step (start 0xFFE 0x24 0x00)) (fun t => t.stack[0] == 0x1000 && t.sp == 1 && t.pc == 0x400) = true := by decide

/-- B7: the workspace test comes before the full-stack test. -/
theorem test_call_tests_workspace_first :
    fails (step (stacked (start 0x200 0x21 0xFF) 16 0x202)) 1 (some 0x1FF) (fun t => t.sp == 16) = true := by decide

/-- B15 and its other side (L1-1). -/
theorem test_seImm :
    after (step (startWith 0x33 0x42 3 0x42 0 0)) (fun t => t.pc == 0x204) = true ∧
    after (step (startWith 0x33 0x42 3 0x41 0 0)) (fun t => t.pc == 0x202) = true := by decide

/-- B17 and its other side (L1-1). -/
theorem test_sneImm :
    after (step (startWith 0x43 0x42 3 0x42 0 0)) (fun t => t.pc == 0x202) = true ∧
    after (step (startWith 0x43 0x42 3 0x41 0 0)) (fun t => t.pc == 0x204) = true := by decide

/-- L1-1. -/
theorem test_seReg : after (step (startWith 0x50 0x10 0 5 1 5)) (fun t => t.pc == 0x204) = true := by decide

/-- L1-1. -/
theorem test_sneReg :
    after (step (startWith 0x90 0x10 0 4 1 5)) (fun t => t.pc == 0x204) = true ∧
    after (step (startWith 0x90 0x10 0 5 1 5)) (fun t => t.pc == 0x202) = true := by decide

/-- B23: the wrap is at 12 bits. -/
theorem test_jpV0_wraps :
    after (step (startWith 0xBF 0xFF 0 0xFF 1 0)) (fun t => t.pc == 0x0FE && t.out.log == [.jumpWrap 0xBFFF 0x10FE]) = true := by
  decide

/-- B25: V0 is used, not V5. -/
theorem test_jpV0_uses_v0 : after (step (startWith 0xB5 0xFE 0 1 5 0x77)) (fun t => t.pc == 0x5FF) = true := by decide

/-! ## The V registers -/

/-- C1. -/
theorem test_ldImm : after (step (start 0x200 0x6A 0x2B)) (fun t => t.reg 10 == 0x2B) = true := by decide

/-- C2: no carry is written. -/
theorem test_addImm : after (step (startWith 0x70 0x02 0 0xFF 15 7)) (fun t => t.reg 0 == 1 && t.reg 15 == 7) = true := by decide

/-- C4. -/
theorem test_ldReg : after (step (startWith 0x80 0x10 1 7 0 0)) (fun t => t.reg 0 == 7) = true := by decide

/-- C5, C6 and C7, with VF kept. -/
theorem test_logic :
    after (step ((startWith 0x80 0x11 0 0x0F 1 0xF0).setReg 15 5)) (fun t => t.reg 0 == 0xFF && t.reg 15 == 5) = true ∧
    after (step ((startWith 0x80 0x12 0 0x3C 1 0x0F).setReg 15 5)) (fun t => t.reg 0 == 0x0C && t.reg 15 == 5) = true ∧
    after (step ((startWith 0x80 0x13 0 0x3C 1 0x0F).setReg 15 5)) (fun t => t.reg 0 == 0x33 && t.reg 15 == 5) = true := by decide

/-- L1-4. -/
theorem test_addReg : after (step (startWith 0x80 0x14 0 0xFF 1 1)) (fun t => t.reg 0 == 0 && t.reg 15 == 1) = true := by decide

/-- C11: VF is read before it is written. -/
theorem test_addReg_reads_vf_first :
    after (step (startWith 0x80 0xF4 0 0x10 15 5)) (fun t => t.reg 0 == 0x15 && t.reg 15 == 0) = true := by decide

/-- L1-4: a borrow. -/
theorem test_subReg : after (step (startWith 0x80 0x15 0 0 1 1)) (fun t => t.reg 0 == 0xFF && t.reg 15 == 0) = true := by decide

/-- C13: the flag overwrites the difference. -/
theorem test_subReg_into_vf : after (step (startWith 0x8F 0x15 15 0x10 1 0x20)) (fun t => t.reg 15 == 0) = true := by decide

/-- C18: VY is ignored. -/
theorem test_shr : after (step (startWith 0x81 0x26 1 5 2 0xAA)) (fun t => t.reg 1 == 2 && t.reg 15 == 1) = true := by decide

/-- C20: VF keeps the old bit 0. -/
theorem test_shr_vf : after (step (startWith 0x8F 0xF6 15 3 0 0)) (fun t => t.reg 15 == 1) = true := by decide

/-- C14 and C17. -/
theorem test_subnReg :
    after (step (startWith 0x80 0x17 0 1 1 0)) (fun t => t.reg 0 == 0xFF && t.reg 15 == 0) = true ∧
    after (step (startWith 0x80 0x17 0 3 1 5)) (fun t => t.reg 0 == 2 && t.reg 15 == 1) = true := by decide

/-- C21 and C23. -/
theorem test_shl :
    after (step (startWith 0x82 0x0E 2 0x81 0 0)) (fun t => t.reg 2 == 2 && t.reg 15 == 1) = true ∧
    after (step (startWith 0x82 0x0E 2 0x7F 0 0)) (fun t => t.reg 2 == 0xFE && t.reg 15 == 0) = true := by decide

/-- C28: the random byte is the cycle's free value, masked. -/
theorem test_rnd : execRnd 0 0xFF State.reset = .next (State.reset.setReg 0 (Config.rnd 0 &&& 0xFF)) := rfl

/-! ## The index register and memory -/

/-- D1. -/
theorem test_ldI : after (step (start 0x200 0xA4 0x00)) (fun t => t.i == 0x400) = true := by decide

/-- D2. -/
theorem test_addI_wraps :
    after (step ((startWith 0xF0 0x1E 0 2 15 7).setI 0xFFFF))
      (fun t => t.i == 1 && t.reg 15 == 7 && t.out.log == [.indexWrap 0x10001]) = true := by decide

/-- D3: no wrap at 12 bits. -/
theorem test_addI_past_memory :
    after (step ((startWith 0xF0 0x1E 0 2 1 0).setI 0xFFF)) (fun t => t.i == 0x1001 && t.out.log == []) = true := by decide

/-- D5: the low nibble is used. -/
theorem test_ldF : after (step (startWith 0xF5 0x29 5 0x1A 0 0)) (fun t => t.i == 0x082) = true := by decide

/-- D8: the last place that fits. -/
theorem test_ldB :
    after (step ((startWith 0xF0 0x33 0 255 1 0).setI 0xFFD))
      (fun t => t.readByte 0xFFD == 2 && t.readByte 0xFFE == 5 && t.readByte 0xFFF == 5) = true := by decide

/-- D9: the first place that does not. -/
theorem test_ldB_past :
    fails (step ((startWith 0xF0 0x33 0 255 1 0).setI 0xFFE)) 1 (some 0xFFE) (fun t => t.readByte 0xFFE == 0) = true := by decide

/-- D16: the font is ordinary memory; X = 0 stores one register. -/
theorem test_storeRegs :
    after (step ((startWith 0xF0 0x55 0 0xAB 1 0xCD).setI 0x050)) (fun t => t.readByte 0x050 == 0xAB && t.readByte 0x051 == 0x90) =
      true := by decide

/-- D11. -/
theorem test_storeRegs_past :
    fails (step ((startWith 0xF1 0x55 0 1 1 2).setI 0xFFF)) 1 (some 0xFFF) (fun t => t.readByte 0xFFF == 0) = true := by decide

/-- The load order of L1-5, from the default glyph 0 (R31): V0 to V2, and V3 kept. -/
theorem test_loadRegs :
    after (step ((startWith 0xF2 0x65 3 7 0 0).setI 0x050))
      (fun t => t.reg 0 == 0xF0 && t.reg 1 == 0x90 && t.reg 2 == 0x90 && t.reg 3 == 7 && t.i == 0x050) = true := by decide

/-- D15. -/
theorem test_loadRegs_past :
    fails (step ((startWith 0xFF 0x65 3 7 0 0).setI 0xFF1)) 1 (some 0xFF1) (fun t => t.reg 3 == 7) = true := by decide

/-! ## The display -/

/-- L1-2, two pixels of it. -/
theorem test_cls :
    after (step ((start 0x200 0x00 0xE0).setFb (Vector.replicate 32 (BitVec.allOnes 64))))
      (fun t => !t.pixel 0 0 && !t.pixel 63 31) = true := by decide

/-- L1-7, clipped at the right and the bottom: pixels 1982, 1983 and 2046 are set. -/
theorem test_drw_clips :
    after (step ((startWith 0xD1 0x25 1 62 2 30).setI 0x050))
      (fun t => t.fb[30] == 0b11#64 && t.fb[31] == 0b10#64 && t.fb[0] == 0 && t.reg 15 == 0) = true := by decide

/-- E8: a collision at pixel 0, the draw touching only columns 0 to 7; the sprite byte 0xF0 is the first of glyph 0. -/
theorem test_drw_collides :
    after (step (((startWith 0xD0 0x11 0 0 1 0).setI 0x050).setFb ((Vector.replicate 32 0).set 0 0x8080000000000000#64)))
      (fun t => t.fb[0] == 0x7080000000000000#64 && t.reg 15 == 1) = true := by decide

/-! ## The keypad and the timers -/

/-- F1 and F2. -/
theorem test_skp :
    after (step { startWith 0xE2 0x9E 2 5 0 0 with key := (Vector.replicate 16 false).set 5 true }) (fun t => t.pc == 0x204) = true ∧
    after (step (startWith 0xE2 0x9E 2 5 0 0)) (fun t => t.pc == 0x202) = true := by decide

/-- F4: the index is not masked. -/
theorem test_skp_index : fails (step (startWith 0xE0 0x9E 0 0x10 1 0)) 4 (some 0x10) (fun t => t.pc == 0x202) = true := by decide

/-- F3. -/
theorem test_sknp : after (step (startWith 0xE2 0xA1 2 5 0 0)) (fun t => t.pc == 0x204) = true := by decide

/-- F7: the lowest pressed key. -/
theorem test_ldVxK_key :
    after (step { start 0x200 0xF3 0x0A with key := ((Vector.replicate 16 false).set 2 true).set 15 true })
      (fun t => t.reg 3 == 2 && t.pc == 0x202) = true := by decide

/-- F6: waiting keeps PC, and the timers tick. -/
theorem test_ldVxK_waits : after (step ((start 0x20C 0xF3 0x0A).setDt 9)) (fun t => t.pc == 0x20C && t.dt == 8) = true := by decide

/-- F9. -/
theorem test_ldVxDt : after (step ((start 0x200 0xF1 0x07).setDt 5)) (fun t => t.reg 1 == 5 && t.dt == 4) = true := by decide

/-- F12: the tick of the same cycle. -/
theorem test_ldDtVx :
    after (step (startWith 0xF0 0x15 0 1 1 0)) (fun t => t.dt == 0 && t.out.delayExpired && !t.out.beep) = true := by decide

/-- F14. -/
theorem test_ldStVx :
    after (step (startWith 0xF0 0x18 0 1 1 0)) (fun t => t.st == 0 && t.out.soundExpired && t.out.beep) = true := by decide

/-! ## The host -/

/-- G1 and G2. -/
theorem test_init :
    State.reset.readByte 0x050 = 0xF0 ∧ State.reset.readByte 0x09F = 0x80 ∧ State.reset.readByte 0x0A0 = 0 ∧
    State.reset.pc = 0x200 ∧ ({ State.reset with config := { defaultConfig with eti660 := true } } : State).init.pc = 0x600 := by
  decide

/-- G4 and G5, by the workspace sizes 3584 and 2560. -/
theorem test_load_too_large :
    0x1000 - wsStart defaultConfig = 3584 ∧ 0x1000 - wsStart { defaultConfig with eti660 := true } = 2560 := by decide

/-- `Load` writes in file order. -/
theorem test_load :
    (match State.reset.load (some [0x12, 0x00, 0x34]) with
      | .ok (t, n) => n == 3 && t.readByte 0x200 == 0x12 && t.readByte 0x202 == 0x34
      | .error _ => false) = true := by decide

/-! ## Witnesses: for every obligation with hypotheses, a state and operands that meet them -/

theorem witness_DecodeOfEncode : (Instr.sys 0xFFF).wellFormed = true ∧ (Instr.shl 15 15).wellFormed = true := by decide

theorem witness_EncodeOfDecode : decode 0xFF65 = .ok (.loadRegs 15) ∧ decode 0x00E1 = .ok (.sys 0x0E1) := by decide

/-- Row 1 beside its two exceptions, and row 2. -/
theorem witness_DecodeFollowsOpcodeMap :
    (⟨0x0000, 0xF000⟩ : OpcodeRow) ∈ opcodeMap ∧ ((0x00E1 : Word) ≠ 0x00E0 ∧ (0x00E1 : Word) ≠ 0x00EE) ∧
    (⟨0x00E0, 0xFFFF⟩ : OpcodeRow) ∈ opcodeMap ∧ ((0x00E0 : Word) = 0x0000 → False) := by decide

theorem witness_UnknownOpcodesAreTheListedOnes :
    decode 0x500F = .error (.unknownOpcode 0x500F) ∧ decode 0x800F = .error (.unknownOpcode 0x800F) ∧
    decode 0xEFFF = .error (.unknownOpcode 0xEFFF) ∧ decode 0xF066 = .error (.unknownOpcode 0xF066) := by decide

/-- One state for each clause: a next state at the last PC that fetches, a fault, and a refusal. -/
theorem witness_StepRunsTheDecodedInstruction :
    ((start 0xFFE 0x60 0x01).CanFetch ∧ decode (start 0xFFE 0x60 0x01).opcodeAtPc = .ok (.ldImm 0 1) ∧
      ∃ t, exec (.ldImm 0 1) (start 0xFFE 0x60 0x01).fetched = .next t) ∧
    ((start 0x200 0x00 0xEE).CanFetch ∧ decode (start 0x200 0x00 0xEE).opcodeAtPc = .ok .ret ∧
      ∃ f, exec .ret (start 0x200 0x00 0xEE).fetched = .fault f) ∧
    ((stacked (start 0x200 0x00 0xEE) 17 0).CanFetch ∧ decode (stacked (start 0x200 0x00 0xEE) 17 0).opcodeAtPc = .ok .ret ∧
      ∃ r, exec .ret (stacked (start 0x200 0x00 0xEE) 17 0).fetched = .refused r) := by
  refine ⟨⟨by unfold State.CanFetch; decide, by decide, _, rfl⟩, ⟨by unfold State.CanFetch; decide, by decide, _, rfl⟩,
    ⟨by unfold State.CanFetch; decide, by decide, _, rfl⟩⟩

theorem witness_TickCountsDownAndSignals :
    (State.reset.setDt 1).dt.toNat > 0 ∧ State.reset.dt.toNat = 0 ∧ (State.reset.setSt 1).st.toNat > 0 ∧
    State.reset.st.toNat = 0 := by decide

theorem witness_UnknownOpcodeIsALoggedNoop :
    (start 0xFFE 0x58 0x31).CanFetch ∧
    decode (start 0xFFE 0x58 0x31).opcodeAtPc = .error (.unknownOpcode (start 0xFFE 0x58 0x31).opcodeAtPc) :=
  ⟨by unfold State.CanFetch; decide, by decide⟩

theorem witness_FetchPastMemoryFaults :
    (State.reset.setPc 0xFFF).initialized = true ∧ 0xFFF ≤ (State.reset.setPc 0xFFF).pc.toNat := by decide

theorem witness_CycleBeforeInitializeIsRefused : (State.construct defaultConfig).initialized = false := rfl

/-- A state at the ends of the legal ranges: SP 16, PC 0x1002, a slot holding 0x1000. -/
def edge : State := (stacked State.reset 16 0x1000).setPc 0x1002

theorem edge_legal : edge.Legal := ⟨by decide, by decide, by decide, by decide⟩

theorem witness_StepIsNeverRefused : edge.Legal ∧ edge.initialized = true := ⟨edge_legal, rfl⟩

theorem witness_StoredInstructionIsRunNext :
    (Instr.drw 1 2 5).wellFormed = true ∧ (start 0xFFE 0 0).CanFetch := ⟨rfl, by unfold State.CanFetch; decide⟩

theorem witness_SysIsALoggedNoop : (0x0E1 : Addr) ≠ 0x0E0 ∧ (0x0E1 : Addr) ≠ 0x0EE := by decide

/-- An empty stack, and a full one with a return address at either end of the workspace. -/
theorem witness_ReturnPopsTheStack :
    State.reset.sp = 0 ∧ (stacked State.reset 16 0x200).sp.toNat = (15 : Fin 16).val + 1 ∧
    wsStart (stacked State.reset 16 0x200).config ≤ (stacked State.reset 16 0x200).stack[(15 : Fin 16)].toNat ∧
    (stacked State.reset 16 0xFFF).stack[(15 : Fin 16)].toNat ≤ 0xFFF :=
  ⟨by decide, by decide, by decide, by decide⟩

/-- One slot used, with an address just outside either end of the workspace. -/
theorem witness_ReturnPopsTheStack_rejects :
    (stacked State.reset 1 0x1FF).sp.toNat = (0 : Fin 16).val + 1 ∧
    (stacked State.reset 1 0x1FF).stack[(0 : Fin 16)].toNat < wsStart (stacked State.reset 1 0x1FF).config ∧
    0xFFF < (stacked State.reset 1 0x1000).stack[(0 : Fin 16)].toNat :=
  ⟨by decide, by decide, by decide⟩

/-- A target at the bottom of the workspace with 15 slots used, one just below it, and a full stack. -/
theorem witness_CallPushesAndJumps :
    (wsStart State.reset.config ≤ (0x200 : Addr).toNat ∧ (stacked State.reset 15 0x200).sp.toNat < 16) ∧
    (0x1FF : Addr).toNat < wsStart State.reset.config ∧
    (wsStart State.reset.config ≤ (0xFFF : Addr).toNat ∧ (stacked State.reset 16 0x200).sp.toNat = 16) := by decide

theorem witness_IllegalStackPointerIsRefused :
    16 < (stacked State.reset 17 0).sp.toNat ∧ wsStart (stacked State.reset 17 0).config ≤ (0x200 : Addr).toNat := by decide

theorem witness_ReturnUndoesCall :
    ∃ t, exec (.call 0x208) (stacked (State.reset.setPc 0xFFF) 15 0) = .next t ∧
      wsStart State.reset.config ≤ (stacked (State.reset.setPc 0xFFF) 15 0).pc.toNat ∧
      (stacked (State.reset.setPc 0xFFF) 15 0).pc.toNat ≤ 0xFFF ∧
      t.stack = t.stack ∧ t.sp = t.sp ∧ t.config = t.config := ⟨_, rfl, by decide, by decide, rfl, rfl, rfl⟩

/-- The destinations beside VF that the frames of `LoadsAndImmediateAdd`, `LogicLeavesVfAlone`, `RandomByteIsMasked` and
`DelayTimerIsReadBeforeTheTick` leave alone. -/
theorem witness_otherRegister : (0 : RegIdx) ≠ 1 ∧ regF ≠ (1 : RegIdx) := by decide

/-- The destination beside VF of `AddWritesCarry`, `SubtractWritesNoBorrow` and `ShiftsMoveByOne`, and a third register. -/
theorem witness_notFlagRegister : (1 : RegIdx) ≠ regF ∧ (0 : RegIdx) ≠ 1 ∧ (0 : RegIdx) ≠ regF := by decide

/-- The last I that fits, and the next. -/
theorem witness_DecimalDigitsAreStored :
    (State.reset.setI 0xFFD).i.toNat + 2 ≤ 0xFFF ∧ (State.reset.setI 0xFFE).i.toNat + 2 > 0xFFF ∧
    (0xFFC < (State.reset.setI 0xFFD).i.toNat) := by decide

/-- The last I that fits all 16 registers, and the next: the hypotheses of `RegistersAreStored` and `RegistersAreLoaded`. -/
theorem witness_RegistersAreStored :
    (State.reset.setI 0xFF0).i.toNat + (15 : RegIdx).val ≤ 0xFFF ∧ (State.reset.setI 0xFF1).i.toNat + (15 : RegIdx).val > 0xFFF ∧
    (15 : RegIdx) ≤ 15 ∧ (State.reset.setI 0xFF0).i.toNat + (15 : RegIdx).val < 0x1000 := by decide

theorem witness_RegistersAreLoaded :
    (State.reset.setI 0xFFF).i.toNat + (0 : RegIdx).val ≤ 0xFFF ∧ (State.reset.setI 0xFFF).i.toNat + (1 : RegIdx).val > 0xFFF := by
  decide

theorem witness_StoreThenLoadRestoresRegisters :
    ∃ t, exec (.storeRegs 2) (State.reset.setI 0x300) = .next t ∧ t.mem = t.mem ∧ t.i = t.i ∧ t.config = t.config ∧
      (2 : RegIdx) ≤ 2 ∧ (2 : RegIdx) < 3 := ⟨_, rfl, rfl, rfl, rfl, by decide, by decide⟩

theorem witness_ReadGivesLastWrite : 0xFFF ≤ 0xFFF ∧ (State.reset.writeByte 0xFFF 7).readByte 0xFFF = 7 := by decide

/-- The last point on the screen and the last span that fits; a pixel inside the rectangle and one outside it; and screens on
which a pixel does and does not go from set to unset. -/
theorem witness_DrawXorsTheClippedSprite :
    (5 : Nibble) ≠ 0 ∧ ((State.reset.setReg 1 63).setReg 2 31).reg 1 = 63 ∧ ((State.reset.setReg 1 63).setReg 2 31).reg 2 = 31 ∧
    (State.reset.setI 0xFD8).i.toNat + 8 * (5 : Nibble).toNat ≤ 0x1000 ∧
    after (execDrw 1 2 5 (((State.reset.setReg 1 63).setReg 2 31).setI 0x050)) (fun t => t.reg regF == 0 && t.pixel 63 31) = true ∧
    after (execDrw 1 2 5 ((((State.reset.setReg 1 63).setReg 2 31).setI 0x050).setFb (Vector.replicate 32 1#64)))
      (fun t => t.reg regF == 1 && !t.pixel 63 31 && t.pixel 63 30) = true := by decide

theorem witness_SkippedDrawOnlyLogs :
    (0 : Nibble) = 0 ∧ (1 : Nibble) ≠ 0 ∧ 64 ≤ ((State.reset.setReg 1 64).reg 1).toNat ∧ 32 ≤ ((State.reset.setReg 2 32).reg 2).toNat := by
  decide

theorem witness_DrawPastMemoryFaults :
    (5 : Nibble) ≠ 0 ∧ ((State.reset.setI 0xFD9).reg 0).toNat < 64 ∧ ((State.reset.setI 0xFD9).reg 1).toNat < 32 ∧
    (State.reset.setI 0xFD9).i.toNat + 8 * (5 : Nibble).toNat > 0x1000 := by decide

theorem witness_DrawingTwiceRestoresTheScreen :
    (0 : RegIdx) ≠ regF ∧ (1 : RegIdx) ≠ regF ∧ (5 : Nibble) ≠ 0 ∧ ((State.reset.setI 0x050).reg 0).toNat < 64 ∧
    ((State.reset.setI 0x050).reg 1).toNat < 32 ∧ ∃ t, exec (.drw 0 1 5) (State.reset.setI 0x050) = .next t :=
  ⟨by decide, by decide, by decide, by decide, by decide, next_of_after (p := fun _ => true) (by decide)⟩

/-- The last key, and the first index that names none. -/
theorem witness_SkipOnKey :
    ((State.reset.setReg 0 15).reg 0).toNat = (15 : Fin 16).val ∧ ((State.reset.setReg 0 16).reg 0).toNat > 15 := by decide

/-- No key; only the last key; and the other policy. -/
theorem witness_KeyWaitFollowsItsPolicy :
    (State.reset.config.fx0aPolicy = .wait ∧ ∀ k : Fin 16, State.reset.key[k] = false) ∧
    (((State.reset.setKeys ((Vector.replicate 16 false).set 15 true)).key[(15 : Fin 16)] = true) ∧
      ∀ j : Fin 16, j < 15 → (State.reset.setKeys ((Vector.replicate 16 false).set 15 true)).key[j] = false) ∧
    ({ defaultConfig with fx0aPolicy := .emptyBody } : Config).fx0aPolicy = .emptyBody := by decide

/-- A cycle of FX15, one of FX18, and one of neither. -/
theorem witness_TimersAtTheEndOfACycle :
    (∃ t, step (start 0x200 0xF0 0x15) = .next t ∧ decode (start 0x200 0xF0 0x15).opcodeAtPc = .ok (.ldDtVx 0)) ∧
    (∃ t, step (start 0x200 0xF0 0x18) = .next t ∧ decode (start 0x200 0xF0 0x18).opcodeAtPc = .ok (.ldStVx 0)) ∧
    (∃ t, step (start 0x200 0x58 0x31) = .next t ∧ decode (start 0x200 0x58 0x31).opcodeAtPc = .error (.unknownOpcode 0x5831)) :=
  ⟨⟨_, rfl, by decide⟩, ⟨_, rfl, by decide⟩, ⟨_, rfl, by decide⟩⟩

/-- A legal state whose step answers a next state, and one whose step is a fault. -/
theorem witness_StepKeepsStateLegal :
    ((stacked (start 0xFFE 0x24 0x00) 15 0x1000).Legal ∧ ∃ t, step (stacked (start 0xFFE 0x24 0x00) 15 0x1000) = .next t) ∧
    (edge.Legal ∧ ∃ f, step edge = .fault f) :=
  ⟨⟨⟨by decide, by decide, by decide, by decide⟩, _, rfl⟩, edge_legal, _, rfl⟩

theorem witness_StepKeepsUnusedSlotsClear :
    (stacked (start 0x200 0x00 0xEE) 16 0x200).UnusedSlotsClear ∧ ∃ t, step (stacked (start 0x200 0x00 0xEE) 16 0x200) = .next t :=
  ⟨by unfold State.UnusedSlotsClear; decide, _, rfl⟩

/-- A fetch that fails, a return that rejects its address, and another error. -/
theorem witness_ErrorLeavesTheStatedState :
    (∃ f, step edge = .fault f) ∧ (∃ f, step (stacked (start 0x200 0x00 0xEE) 1 0x1F0) = .fault f) ∧
    (∃ f, step (startWith 0xE0 0x9E 0 0x10 1 0) = .fault f) := ⟨⟨_, rfl⟩, ⟨_, rfl⟩, ⟨_, rfl⟩⟩

/-- The hypotheses of `OnlyStoresChangeMemory`, of `OnlyDrawingTouchesTheScreen`, of `KeypadIsWrittenByTheHostOnly` on an
instruction, and of `SoundTimerIsNeverRead`. -/
theorem witness_otherInstruction :
    (∀ x, Instr.addI 0 ≠ .ldB x) ∧ (∀ x, Instr.addI 0 ≠ .storeRegs x) ∧ Instr.addI 0 ≠ .cls ∧ (∀ x y n, Instr.addI 0 ≠ .drw x y n) ∧
    (∀ x, Instr.addI 0 ≠ .skp x) ∧ (∀ x, Instr.addI 0 ≠ .sknp x) ∧ (∀ x, Instr.addI 0 ≠ .ldVxK x) ∧
    (∀ x, Instr.addI 0 ≠ .ldStVx x) ∧ ∃ t, exec (.addI 0) State.reset = .next t := by
  refine ⟨?_, ?_, ?_, ?_, ?_, ?_, ?_, ?_, _, rfl⟩ <;> simp

/-- Steps of either outcome, for `KeypadIsWrittenByTheHostOnly` and `ParametersAreFixed`. -/
theorem witness_stepOutcomes : (∃ t, step State.reset = .next t) ∧ ∃ f, step edge = .fault f := ⟨⟨_, rfl⟩, _, rfl⟩

/-- One state for each clause. -/
theorem witness_StackPointerRules :
    ((∀ nnn, Instr.cls ≠ .call nnn) ∧ Instr.cls ≠ .ret ∧ ∃ t, exec .cls State.reset = .next t) ∧
    (∃ t, exec (.call 0x200) (stacked State.reset 15 0x200) = .next t) ∧
    (∃ t, exec .ret (stacked State.reset 16 0x200) = .next t) ∧
    (stacked State.reset 16 0x200).sp.toNat = 16 ∧ State.reset.sp.toNat = 0 :=
  ⟨⟨by simp, by simp, _, rfl⟩, ⟨_, rfl⟩, ⟨_, rfl⟩, by decide, by decide⟩

theorem witness_OnlyFlagWritersChangeVf :
    ∃ t, exec (.addReg 0 1) ((State.reset.setReg 0 255).setReg 1 1) = .next t ∧
      t.reg regF ≠ ((State.reset.setReg 0 255).setReg 1 1).reg regF := ⟨_, rfl, by decide⟩

/-- Host actions that all succeed, an error among them; both modes are instances. -/
theorem witness_ParametersAreFixed :
    ∃ m, ({ machine := edge, firstFault := none } : Session).run [.cycle, .init, .load none, .setKeys (Vector.replicate 16 true),
      .readFramebuffer, .cycle] = .ok m := ⟨_, rfl⟩

/-- The first and last font bytes' neighbours, and the last bytes of memory. -/
theorem witness_InitializeSetsEveryField :
    (0x04F < 0x050 ∨ 0x0A0 ≤ 0x04F) ∧ (0x0A0 < 0x050 ∨ 0x0A0 ≤ 0x0A0) ∧ (0xFFF < 0x050 ∨ 0x0A0 ≤ 0xFFF) := by decide

/-- A program of the greatest length, one longer, and an address on either side of a short one. -/
theorem witness_LoadStoresTheProgram :
    (List.replicate 3584 (1 : Byte)).length ≤ 0x1000 - wsStart State.reset.config ∧
    0x1000 - wsStart State.reset.config < (List.replicate 3585 (1 : Byte)).length ∧
    (0x1FF < wsStart State.reset.config ∨ wsStart State.reset.config + 2 ≤ 0x1FF) ∧
    (0x202 < wsStart State.reset.config ∨ wsStart State.reset.config + 2 ≤ 0x202) := by
  refine ⟨?_, ?_, by decide, by decide⟩ <;> (rw [List.length_replicate]; decide)

theorem witness_FramebufferIsReadRowMajor : 63 < 64 ∧ 31 < 32 ∧ 31 * 64 + 63 < 2048 := by decide

/-- A session that already holds an error and goes on, and cycles of either outcome. -/
theorem witness_SessionRecordsTheFirstError :
    (∃ f m m', step edge = .fault f ∧ m = ({ machine := edge, firstFault := some f } : Session) ∧ m.firstFault = some f ∧
      m.run [.init, .cycle] = .ok m') ∧ ∃ t, step State.reset = .next t := ⟨⟨_, _, _, rfl, rfl, rfl, rfl⟩, _, rfl⟩

theorem witness_CycleReturnsOneResultCode :
    (edge.Legal ∧ edge.initialized = true) ∧ resultCode (step edge) = some 1 := ⟨⟨edge_legal, rfl⟩, rfl⟩

end Sys2Proof.Tests
end

section
/-! PROOFS. The fixed parameters of a machine (`00_scope.md` R3, R8): no cycle and no host action changes them, and `ETI660` sets the
program origin and the workspace. -/

namespace Sys2Proof.Machine

/-! ## One cycle -/

@[simp] theorem State.fetched_config (s : State) : s.fetched.config = s.config := rfl

/-- A cycle that returns Ok keeps the parameters. -/
theorem step_next_config {s t : State} (h : step s = .next t) : t.config = s.config := by
  obtain ⟨_, u, rfl, ⟨i, _, he⟩ | ⟨bad, _, rfl⟩⟩ := step_next_effect h
  · exact he.fixed.1
  · rfl

/-- The state an instruction leaves when it raises an error has its parameters. -/
theorem exec_fault_config {i : Instr} {s : State} {f : Fault} (h : exec i s = .fault f) : f.resume.config = s.config := by
  obtain ⟨hr, _⟩ | ⟨_, _, hr⟩ := exec_fault_resume h <;> rw [hr] <;> rfl

/-- A cycle that returns an error keeps the parameters, whether the fetch or the instruction failed. -/
theorem step_fault_config {s : State} {f : Fault} (h : step s = .fault f) : f.resume.config = s.config := by
  obtain ⟨_, ⟨_, rfl⟩ | ⟨_, i, _, he⟩⟩ := step_fault_exec h
  · rfl
  · exact (exec_fault_config he).trans s.fetched_config

/-! ## The host's actions -/

@[simp] theorem State.init_config (s : State) : s.init.config = s.config := rfl

@[simp] theorem State.setKeys_config (s : State) (k : Vector Bool 16) : (s.setKeys k).config = s.config := rfl

/-- A `Load` that is not rejected keeps the parameters. -/
theorem State.load_config {s t : State} {source : Option (List Byte)} {n : Nat} (h : s.load source = .ok (t, n)) :
    t.config = s.config := by
  cases source with
  | none => cases h
  | some b =>
    simp only [State.load] at h
    split at h
    · cases h
    · cases h; exact State.writeBytes_config ..

/-- A cycle of a session that is not refused keeps the parameters, whichever result it returns. -/
theorem Session.cycle_config {m m' : Session} (h : m.cycle = .ok m') : m'.machine.config = m.machine.config := by
  unfold Session.cycle at h
  split at h
  · next hs => cases h; exact step_next_config hs
  · next hs => cases h; exact step_fault_config hs
  · cases h

/-- A host action that is not refused keeps the parameters. -/
theorem Session.act_config {m m' : Session} {a : HostAction} (h : m.act a = .ok m') :
    m'.machine.config = m.machine.config := by
  cases a with
  | init => cases h; exact State.init_config _
  | setKeys k => cases h; exact State.setKeys_config ..
  | readFramebuffer => cases h; rfl
  | cycle => exact Session.cycle_config h
  | load source =>
    simp only [Session.act] at h
    split at h
    · next hl => cases h; exact State.load_config hl
    · cases h; rfl

/-- So does every list of host actions none of which is refused. -/
theorem Session.run_config {m m' : Session} {as : List HostAction} (h : m.run as = .ok m') :
    m'.machine.config = m.machine.config := by
  induction as generalizing m with
  | nil => cases h; rfl
  | cons a as ih =>
    unfold Session.run at h
    split at h
    · next m₁ ha => exact (ih h).trans (Session.act_config ha)
    · cases h

/-! ## The program origin and the workspace -/

/-- After `Initialize`, PC is the program origin of the machine. -/
theorem State.init_pc_toNat (s : State) : s.init.pc.toNat = wsStart s.config := wsStart_toNat s.config

/-- Settles O54. The step and session clauses are the frame lemmas above; the last two clauses are about `wsStart`, which is
`0x600` or `0x200` by `ETI660`. -/
theorem parametersAreFixed : Obligations.ParametersAreFixed :=
  ⟨fun _ _ => step_next_config, fun _ _ => step_fault_config, fun _ _ _ => Session.run_config,
    State.init_pc_toNat, State.inWorkspace_iff⟩

end Sys2Proof.Machine
end

section
/-! PROOFS. The legal values of the machine's state (`10_state.md` R25 to R29, R40): `Initialize` gives them, every cycle keeps them
whichever way it ends, and from them no cycle is refused. -/

namespace Sys2Proof.Machine

/-! ## The state before and after `Initialize` -/

theorem State.afterInitialize_pc_toNat (c : Config) (n : Nat) : (State.afterInitialize c n).pc.toNat = wsStart c :=
  wsStart_toNat c

theorem State.afterInitialize_slot (c : Config) (n : Nat) (k : Fin 16) : (State.afterInitialize c n).stack[k] = 0 := by
  simp [State.afterInitialize]

theorem State.afterInitialize_legal (c : Config) (n : Nat) : (State.afterInitialize c n).Legal where
  sp_le := Nat.zero_le _
  pc_le := by
    rw [State.afterInitialize_pc_toNat]
    rcases wsStart_cases c with h | h <;> omega
  slots_le k := by rw [State.afterInitialize_slot]; exact Nat.zero_le _
  mem_wf := Memory.wf_nil _

theorem State.afterInitialize_unusedSlotsClear (c : Config) (n : Nat) :
    (State.afterInitialize c n).UnusedSlotsClear := fun k _ => State.afterInitialize_slot c n k

theorem State.afterInitialize_canFetch (c : Config) (n : Nat) : (State.afterInitialize c n).CanFetch := by
  refine ⟨rfl, ?_⟩
  rw [State.afterInitialize_pc_toNat]
  rcases wsStart_cases c with h | h <;> omega

theorem step_uninitialized {s : State} (h : s.initialized = false) : step s = .refused .notInitialized := if_pos h

/-- Settles O10: a step first tests that `Initialize` has run, which is false of a new machine, and
`Initialize` leaves a state that can fetch. -/
theorem cycleBeforeInitializeIsRefused : Obligations.CycleBeforeInitializeIsRefused :=
  ⟨fun _ => step_uninitialized, fun _ => step_uninitialized rfl, fun c => State.afterInitialize_canFetch c _⟩

/-- Settles O46: `State.reset` and `s.init` are both the state `Initialize` leaves. -/
theorem resetIsLegal : Obligations.ResetIsLegal :=
  ⟨State.afterInitialize_legal .., State.afterInitialize_unusedSlotsClear _ _, State.afterInitialize_canFetch .., rfl,
    fun _ => ⟨State.afterInitialize_legal .., State.afterInitialize_unusedSlotsClear _ _, State.afterInitialize_canFetch ..⟩⟩

/-! ## The stack pointer -/

/-- A push makes SP one more: with a slot free it does not wrap. -/
theorem sp_add_one_toNat {sp : Byte} (h : sp.toNat < 16) : (sp + 1).toNat = sp.toNat + 1 := by
  rw [BitVec.toNat_add]
  exact Nat.mod_eq_of_lt (Nat.lt_trans (Nat.succ_lt_succ h) (by decide))

/-- A slot's number fits SP. -/
theorem slot_toNat (k : Fin 16) : (BitVec.ofNat 8 k.val : Byte).toNat = k.val := by
  rw [BitVec.toNat_ofNat]
  exact Nat.mod_eq_of_lt (Nat.lt_trans k.isLt (by decide))

/-- Only a return and a call change SP. -/
theorem Effect.sp_eq {s t : State} {i : Instr} (h : Effect s i t) (hcall : ∀ nnn, i ≠ .call nnn) (hret : i ≠ .ret) :
    t.sp = s.sp := by
  cases h with
  | ret => exact absurd rfl hret
  | call nnn => exact absurd rfl (hcall nnn)
  | onRegisters i t kind frame pc => rw [frame]
  | digits | regsStored => exact State.writeBytes_sp ..
  | cls | drawSkipped | drawn | dtSet | stSet => rfl

/-- A call that answers a next state found a free slot and made SP one more. -/
theorem execCall_sp {nnn : Addr} {s t : State} (h : exec (.call nnn) s = .next t) :
    s.sp.toNat < 16 ∧ t.sp.toNat = s.sp.toNat + 1 := by
  obtain ⟨_, h16, rfl⟩ := execCall_next h
  exact ⟨h16, sp_add_one_toNat h16⟩

/-- A return that answers a next state made SP one less. -/
theorem execRet_sp {s t : State} (h : exec .ret s = .next t) : t.sp.toNat + 1 = s.sp.toNat := by
  cases exec_effect h with
  | ret k used target => rw [slot_toNat, used]
  | onRegisters i t kind frame pc => cases kind

/-- Settles O52, by the effect of each instruction and what a call and a return make of SP. -/
theorem stackPointerRules : Obligations.StackPointerRules := by
  refine ⟨fun i s t hcall hret h => (exec_effect h).sp_eq hcall hret, fun nnn s t h => ?_, fun s t h => execRet_sp h,
    fun nnn s t h16 h => ?_, fun s t h0 h => ?_⟩
  · obtain ⟨hfree, hsp⟩ := execCall_sp h
    exact ⟨hsp, by omega⟩
  · obtain ⟨hfree, _⟩ := execCall_sp h
    omega
  · have := execRet_sp h
    omega

/-! ## Refusals -/

/-- With SP above 16 a call into the workspace is refused. -/
theorem execCall_illegal {nnn : Addr} {s : State} (hw : s.inWorkspace nnn.toNat = true) (h : 16 < s.sp.toNat) :
    execCall nnn s = .refused .illegalStackPointer := by
  have hne : s.sp ≠ 16 := fun e => by simp [e] at h
  unfold execCall
  rw [if_pos hw, if_neg hne, dif_neg (by omega)]

/-- Settles O17: a 12-bit target not below the workspace is in it. -/
theorem illegalStackPointerIsRefused : Obligations.IllegalStackPointerIsRefused :=
  fun s h => ⟨execRet_illegal s h, fun nnn hw => execCall_illegal (by simpa [inWorkspace_addr] using hw) h⟩

/-- With SP legal a return pops, rejects its address or finds the stack empty. -/
theorem execRet_ne_refused {s : State} (h : s.sp.toNat ≤ 16) (r : Refusal) : execRet s ≠ .refused r := by
  by_cases h0 : s.sp = 0
  · simp [execRet, h0]
  · have hpos : s.sp.toNat ≠ 0 := fun e => h0 (BitVec.eq_of_toNat_eq e)
    rw [execRet_eq s ⟨s.sp.toNat - 1, by omega⟩ (by simp only; omega)]
    split <;> simp

/-- With SP legal a call pushes, rejects its target or finds the stack full. -/
theorem execCall_ne_refused {nnn : Addr} {s : State} (h : s.sp.toNat ≤ 16) (r : Refusal) : execCall nnn s ≠ .refused r := by
  unfold execCall
  split
  · by_cases hfull : s.sp = 16
    · simp [hfull]
    · have : s.sp.toNat ≠ 16 := fun e => hfull (BitVec.eq_of_toNat_eq e)
      rw [if_neg hfull, dif_pos (by omega)]
      simp
  · exact raise_ne_refused _ _ _

/-- With SP legal no instruction is refused: return and call are the only two with a refusal. -/
theorem exec_ne_refused {i : Instr} {s : State} (h : s.sp.toNat ≤ 16) (r : Refusal) : exec i s ≠ .refused r := by
  cases i with
  | ret => exact execRet_ne_refused h r
  | call nnn => exact execCall_ne_refused h r
  | jp | drw | skp | sknp | ldVxK | ldB | storeRegs | loadRegs =>
    simp only [exec, execJp, execDrw, execSkp, execSknp, execLdVxK, execLdB, execStoreRegs, execLoadRegs]
    repeat' split
    all_goals simp
  | sys | cls | seImm | sneImm | seReg | sneReg | jpV0 | ldImm | addImm | ldReg | orReg | andReg | xorReg | addReg | subReg | shr
  | subnReg | shl | rnd | ldI | addI | ldF | ldVxDt | ldDtVx | ldStVx => exact nofun

/-- Settles O11: after `Initialize` a cycle is refused only where its instruction is. -/
theorem stepIsNeverRefused : Obligations.StepIsNeverRefused := by
  intro s r hs hi h
  by_cases hp : s.pc.toNat + 1 ≤ 0xFFF
  · rw [step_of_fetch hi hp, thenTick_refused, beginCycle_advancePc] at h
    obtain ⟨i, _, hd⟩ | ⟨bad, _, hd⟩ := dispatch_cases s.fetchOpcode s.fetched <;> rw [hd] at h
    · exact exec_ne_refused (s := s.fetched) hs.sp_le r h
    · cases h
  · have hf : s.fetchFaults = true := by simp only [State.fetchFaults, decide_eq_true_eq]; omega
    simp [step, hi, hf] at h

/-! ## The stack -/

theorem slot_set (stack : Vector Word 16) (j : Nat) (hj : j < 16) (w : Word) (k : Fin 16) :
    (stack.set j w hj)[k] = if j = k.val then w else stack[k] := Vector.getElem_set hj k.isLt

/-- A push or a return keeps every unused slot clear, and no other instruction changes the stack. -/
theorem Effect.unusedSlotsClear {s t : State} {i : Instr} (he : Effect s i t) (hs : s.UnusedSlotsClear) :
    t.UnusedSlotsClear := by
  cases he with
  | ret j used target =>
    intro k hk
    rw [slot_toNat] at hk
    rw [slot_set]
    split
    · rfl
    · exact hs k (by omega)
  | call nnn target free =>
    intro k hk
    rw [sp_add_one_toNat free] at hk
    rw [slot_set, if_neg (by omega)]
    exact hs k (by omega)
  | onRegisters i t kind frame pc => rw [frame]; exact hs
  | digits x bs | regsStored x bs =>
    intro k hk
    rw [State.writeBytes_sp] at hk
    rw [State.writeBytes_stack]
    exact hs k hk
  | cls | drawSkipped | drawn | dtSet | stSet => exact hs

/-- Settles O47: the instruction's effect, between a fetch and a tick that do not touch the stack. -/
theorem stepKeepsUnusedSlotsClear : Obligations.StepKeepsUnusedSlotsClear := by
  intro s t hs h
  obtain ⟨_, u, rfl, ⟨i, _, he⟩ | ⟨bad, _, rfl⟩⟩ := step_next_effect h
  · exact he.unusedSlotsClear (s := s.fetched) hs
  · exact hs

/-! ## The invariant -/

/-- After a fetch, PC is from 2 to 0x1000, and legality is kept. -/
theorem State.Legal.fetched {s : State} (hs : s.Legal) (hf : s.CanFetch) :
    s.fetched.Legal ∧ 2 ≤ s.fetched.pc.toNat ∧ s.fetched.pc.toNat ≤ 0x1000 := by
  have hpc := fetched_pc_toNat hf
  have := hf.2
  exact ⟨⟨hs.sp_le, by omega, hs.slots_le, hs.mem_wf⟩, by omega, by omega⟩

/-- From a PC that a fetch leaves, where an instruction can take it is still legal: two past 0x1000 is the largest. -/
theorem pc_le_of_target {pc pc' : Word} (hlo : 2 ≤ pc.toNat) (hhi : pc.toNat ≤ 0x1000)
    (h : pc'.toNat ≤ 0xFFF ∨ pc' = pc ∨ pc' = pc + 2 ∨ pc' = pc - 2) : pc'.toNat ≤ 0x1002 := by
  rcases h with h | rfl | rfl | rfl
  · omega
  · omega
  · bv_omega
  · bv_omega

/-- From a PC that a fetch leaves, every instruction keeps the legal values. -/
theorem Effect.legal {s t : State} {i : Instr} (he : Effect s i t) (hs : s.Legal) (hlo : 2 ≤ s.pc.toNat)
    (hhi : s.pc.toNat ≤ 0x1000) : t.Legal := by
  obtain ⟨hsp, hpc, hslots, hmem⟩ := hs
  cases he with
  | ret k used target =>
    obtain ⟨_, hend⟩ := (s.inWorkspace_iff _).mp target
    refine ⟨?_, Nat.le_trans hend (by decide), fun j => ?_, hmem⟩
    · rw [slot_toNat]; omega
    · rw [slot_set]
      split
      · exact Nat.zero_le _
      · exact hslots j
  | call nnn target free =>
    refine ⟨?_, ?_, fun j => ?_, hmem⟩
    · rw [sp_add_one_toNat free]; omega
    · have := nnn.isLt
      rw [zextAddr_toNat]; omega
    · rw [slot_set]
      split
      · exact hhi
      · exact hslots j
  | onRegisters i t kind frame pc =>
    have hpc' := pc_le_of_target hlo hhi pc
    rw [frame]
    exact ⟨hsp, hpc', hslots, hmem⟩
  | digits x bs | regsStored x bs =>
    rw [State.writeBytes_eq]
    exact ⟨hsp, hpc, hslots, State.writeBytes_wf s _ bs hmem⟩
  | cls | drawSkipped | drawn | dtSet | stSet => exact ⟨hsp, hpc, hslots, hmem⟩

/-- The state an instruction leaves when it raises an error is legal: a return that rejects its address only lowers SP. -/
theorem exec_fault_legal {i : Instr} {s : State} {f : Fault} (h : exec i s = .fault f) (hs : s.Legal) : f.resume.Legal := by
  obtain ⟨hsp, hpc, hslots, hmem⟩ := hs
  obtain ⟨hr, _⟩ | ⟨_, hne, hr⟩ := exec_fault_resume h <;> rw [hr]
  · exact ⟨hsp, hpc, hslots, hmem⟩
  · have hpos : s.sp.toNat ≠ 0 := fun e => hne (BitVec.eq_of_toNat_eq e)
    have hdec : (s.sp - 1).toNat ≤ 16 := by bv_omega
    exact ⟨hdec, hpc, hslots, hmem⟩

/-- Settles O45: the fetch, then the instruction's effect or its error, then the tick, which changes none of the four. -/
theorem stepKeepsStateLegal : Obligations.StepKeepsStateLegal := by
  refine fun s hs => ⟨fun t h => ?_, fun f h => ?_⟩
  · obtain ⟨hf, u, rfl, hu⟩ := step_next_effect h
    obtain ⟨hl, hlo, hhi⟩ := hs.fetched hf
    have hu' : u.Legal := by
      obtain ⟨i, _, he⟩ | ⟨bad, _, rfl⟩ := hu
      · exact he.legal hl hlo hhi
      · exact ⟨hl.sp_le, hl.pc_le, hl.slots_le, hl.mem_wf⟩
    exact ⟨hu'.sp_le, hu'.pc_le, hu'.slots_le, hu'.mem_wf⟩
  · obtain ⟨hi, ⟨_, rfl⟩ | ⟨hp, i, _, he⟩⟩ := step_fault_exec h
    · exact ⟨hs.sp_le, hs.pc_le, hs.slots_le, hs.mem_wf⟩
    · exact exec_fault_legal he (hs.fetched ⟨hi, hp⟩).1

end Sys2Proof.Machine
end

section
/-! PROOFS. Who reads and writes the screen, the keypad and the sound timer (`10_state.md` R28, R34, R35, R53). That an instruction
does not read a field is proved once, for an overwriting of all three fields at a time. -/

namespace Sys2Proof.Machine

/-! ## Writers -/

/-- Only a clear and a draw change the screen. -/
theorem Effect.fb_eq {s t : State} {i : Instr} (h : Effect s i t) (hcls : i ≠ .cls) (hdrw : ∀ x y n, i ≠ .drw x y n) :
    t.fb = s.fb := by
  cases h with
  | cls => exact absurd rfl hcls
  | drawSkipped x y n | drawn x y n => exact absurd rfl (hdrw x y n)
  | onRegisters i t kind frame pc => rw [frame]
  | digits | regsStored => exact State.writeBytes_fb ..
  | ret | call | dtSet | stSet => rfl

/-- A cycle that returns Ok keeps the keypad. -/
theorem step_next_key {s t : State} (h : step s = .next t) : t.key = s.key := by
  obtain ⟨_, u, rfl, ⟨i, _, he⟩ | ⟨bad, _, rfl⟩⟩ := step_next_effect h
  · obtain ⟨_, _, hkey, _⟩ := he.fixed
    exact hkey
  · rfl

/-- So does a cycle that returns an error. -/
theorem step_fault_key {s : State} {f : Fault} (h : step s = .fault f) : f.resume.key = s.key := by
  obtain ⟨_, ⟨_, rfl⟩ | ⟨_, i, _, he⟩⟩ := step_fault_exec h
  · rfl
  · obtain ⟨hr, _⟩ | ⟨_, _, hr⟩ := exec_fault_resume he <;> rw [hr] <;> rfl

/-! ## Readers -/

/-- New values for some of the screen, the keypad and the sound timer. -/
structure Overwrite where
  fb  : Option Screen := none
  key : Option (Vector Bool 16) := none
  st  : Option Byte := none

/-- The state with the overwritten fields in place. -/
def Overwrite.apply (o : Overwrite) (s : State) : State :=
  { s with fb := o.fb.getD s.fb, key := o.key.getD s.key, st := o.st.getD s.st }

/-- The instructions that use the screen. -/
def usesScreen : Instr → Bool
  | .cls | .drw _ _ _ => true
  | _ => false

/-- The instructions that use the keypad. -/
def usesKeypad : Instr → Bool
  | .skp _ | .sknp _ | .ldVxK _ => true
  | _ => false

/-- The instruction that uses the sound timer. -/
def usesSoundTimer : Instr → Bool
  | .ldStVx _ => true
  | _ => false

/-- An instruction uses none of the overwritten fields. -/
structure Overwrite.Unused (o : Overwrite) (i : Instr) : Prop where
  fb  : usesScreen i = true → o.fb = none
  key : usesKeypad i = true → o.key = none
  st  : usesSoundTimer i = true → o.st = none

theorem Overwrite.apply_writeBytes (o : Overwrite) (s : State) (a : Nat) (bs : List Byte) :
    (o.apply s).writeBytes a bs = o.apply (s.writeBytes a bs) := by
  induction bs generalizing s a with
  | nil => rfl
  | cons b bs ih => exact ih (s.writeByte a b) (a + 1)

theorem Overwrite.apply_skipIf (o : Overwrite) (s : State) (c : Bool) : (o.apply s).skipIf c = o.apply (s.skipIf c) := by
  cases c <;> rfl

/-! What an overwriting does to a result goes into the branches of a test, and no test looks at the three fields. -/

theorem execRet_apply (o : Overwrite) (s : State) : execRet (o.apply s) = mapStates o.apply (execRet s) := by
  simp only [execRet, apply_ite (mapStates o.apply), apply_dite (mapStates o.apply)]
  rfl

theorem execCall_apply (o : Overwrite) (nnn : Addr) (s : State) :
    execCall nnn (o.apply s) = mapStates o.apply (execCall nnn s) := by
  simp only [execCall, apply_ite (mapStates o.apply), apply_dite (mapStates o.apply)]
  rfl

theorem execJp_apply (o : Overwrite) (nnn : Addr) (s : State) : execJp nnn (o.apply s) = mapStates o.apply (execJp nnn s) := by
  simp only [execJp, apply_ite (mapStates o.apply)]
  rfl

theorem execJpV0_apply (o : Overwrite) (nnn : Addr) (s : State) :
    execJpV0 nnn (o.apply s) = mapStates o.apply (execJpV0 nnn s) := by
  by_cases h : nnn.toNat + (s.reg reg0).toNat > 0xFFF
  · rw [execJpV0_wrap h]; exact execJpV0_wrap (s := o.apply s) h
  · rw [execJpV0_noWrap h]; exact execJpV0_noWrap (s := o.apply s) h

theorem execAddI_apply (o : Overwrite) (x : RegIdx) (s : State) :
    execAddI x (o.apply s) = mapStates o.apply (execAddI x s) := by
  by_cases h : s.i.toNat + (s.reg x).toNat > 0xFFFF
  · rw [execAddI_wrap h]; exact execAddI_wrap (s := o.apply s) h
  · rw [execAddI_noWrap h]; exact execAddI_noWrap (s := o.apply s) h

theorem execLdB_apply (o : Overwrite) (x : RegIdx) (s : State) :
    execLdB x (o.apply s) = mapStates o.apply (execLdB x s) := by
  simp only [execLdB, apply_ite (mapStates o.apply), Overwrite.apply_writeBytes]
  rfl

theorem execStoreRegs_apply (o : Overwrite) (x : RegIdx) (s : State) :
    execStoreRegs x (o.apply s) = mapStates o.apply (execStoreRegs x s) := by
  simp only [execStoreRegs, apply_ite (mapStates o.apply), Overwrite.apply_writeBytes]
  rfl

theorem execLoadRegs_apply (o : Overwrite) (x : RegIdx) (s : State) :
    execLoadRegs x (o.apply s) = mapStates o.apply (execLoadRegs x s) := by
  simp only [execLoadRegs, apply_ite (mapStates o.apply)]
  rfl

theorem execDrw_apply {o : Overwrite} (h : o.fb = none) (x y : RegIdx) (n : Nibble) (s : State) :
    execDrw x y n (o.apply s) = mapStates o.apply (execDrw x y n s) := by
  obtain ⟨_, key, st⟩ := o
  cases h
  simp only [execDrw, apply_ite (mapStates _)]
  rfl

theorem execSkp_apply {o : Overwrite} (h : o.key = none) (x : RegIdx) (s : State) :
    execSkp x (o.apply s) = mapStates o.apply (execSkp x s) := by
  obtain ⟨fb, _, st⟩ := o
  cases h
  simp only [execSkp, apply_dite (mapStates _), Overwrite.apply_skipIf]
  rfl

theorem execSknp_apply {o : Overwrite} (h : o.key = none) (x : RegIdx) (s : State) :
    execSknp x (o.apply s) = mapStates o.apply (execSknp x s) := by
  obtain ⟨fb, _, st⟩ := o
  cases h
  simp only [execSknp, apply_dite (mapStates _), Overwrite.apply_skipIf]
  rfl

theorem execLdVxK_apply {o : Overwrite} (h : o.key = none) (x : RegIdx) (s : State) :
    execLdVxK x (o.apply s) = mapStates o.apply (execLdVxK x s) := by
  obtain ⟨fb, _, st⟩ := o
  cases h
  have hpolicy : (Overwrite.apply ⟨fb, none, st⟩ s).config.fx0aPolicy = s.config.fx0aPolicy := rfl
  have hkey : (Overwrite.apply ⟨fb, none, st⟩ s).lowestKey = s.lowestKey := rfl
  rw [execLdVxK, execLdVxK, hpolicy, hkey]
  cases s.config.fx0aPolicy with
  | wait => cases s.lowestKey <;> rfl
  | emptyBody => rfl

/-- An instruction that uses none of the overwritten fields does the same whatever they hold, and hands them on. -/
theorem exec_apply {o : Overwrite} {i : Instr} (h : o.Unused i) (s : State) :
    exec i (o.apply s) = mapStates o.apply (exec i s) := by
  cases i with
  | ret => exact execRet_apply o s
  | call nnn => exact execCall_apply o nnn s
  | jp nnn => exact execJp_apply o nnn s
  | jpV0 nnn => exact execJpV0_apply o nnn s
  | addI x => exact execAddI_apply o x s
  | ldB x => exact execLdB_apply o x s
  | storeRegs x => exact execStoreRegs_apply o x s
  | loadRegs x => exact execLoadRegs_apply o x s
  | drw x y n => exact execDrw_apply (h.fb rfl) x y n s
  | skp x => exact execSkp_apply (h.key rfl) x s
  | sknp x => exact execSknp_apply (h.key rfl) x s
  | ldVxK x => exact execLdVxK_apply (h.key rfl) x s
  | seImm | sneImm | seReg | sneReg => exact congrArg Host.Outcome.next (o.apply_skipIf s _)
  | cls =>
    obtain ⟨_, key, st⟩ := o
    cases h.fb rfl
    rfl
  | ldStVx x =>
    obtain ⟨fb, key, _⟩ := o
    cases h.st rfl
    rfl
  | sys | ldImm | addImm | ldReg | orReg | andReg | xorReg | addReg | subReg | shr | subnReg | shl | rnd | ldI | ldF | ldVxDt
  | ldDtVx => rfl

/-! ## The host's read of the screen -/

theorem State.readFramebuffer_getElem (s : State) (p : Nat) (h : p < 2048) :
    s.readFramebuffer[p] = BitVec.ofBool (s.pixel (p % 64) (p / 64)) := Vector.getElem_ofFn h

/-- Settles O58: `y * 64 + x` is column `x` of row `y`. -/
theorem framebufferIsReadRowMajor : Obligations.FramebufferIsReadRowMajor := by
  intro s x y hx hy
  have hcol : (y * 64 + x) % 64 = x := by omega
  have hrow : (y * 64 + x) / 64 = y := by omega
  rw [State.readFramebuffer_getElem, hcol, hrow]
  cases s.pixel x y <;> rfl

/-! ## The three fields -/

/-- Settles O50: the frame of each effect, and the overwriting of the screen alone. -/
theorem onlyDrawingTouchesTheScreen : Obligations.OnlyDrawingTouchesTheScreen := by
  refine ⟨fun i s t hcls hdrw h => (exec_effect h).fb_eq hcls hdrw, fun i s fb hcls hdrw => ?_, fun _ _ => rfl,
    fun s p => s.readFramebuffer_getElem p p.isLt⟩
  refine exec_apply (o := { fb := some fb }) ⟨fun h => ?_, fun _ => rfl, fun _ => rfl⟩ s
  cases i with
  | cls => exact absurd rfl hcls
  | drw x y n => exact absurd rfl (hdrw x y n)
  | _ => cases h

/-- Settles O51: the frame of a cycle, and the overwriting of the keypad alone. -/
theorem keypadIsWrittenByTheHostOnly : Obligations.KeypadIsWrittenByTheHostOnly := by
  refine ⟨fun _ _ => step_next_key, fun _ _ => step_fault_key, fun i s k hskp hsknp hk => ?_, fun _ _ _ => rfl⟩
  refine exec_apply (o := { key := some k }) ⟨fun _ => rfl, fun h => ?_, fun _ => rfl⟩ s
  cases i with
  | skp x => exact absurd rfl (hskp x)
  | sknp x => exact absurd rfl (hsknp x)
  | ldVxK x => exact absurd rfl (hk x)
  | _ => cases h

/-- Settles O55, by the overwriting of the sound timer alone. -/
theorem soundTimerIsNeverRead : Obligations.SoundTimerIsNeverRead := by
  intro i s b hst
  refine exec_apply (o := { st := some b }) ⟨fun _ => rfl, fun _ => rfl, fun h => ?_⟩ s
  cases i with
  | ldStVx x => exact absurd rfl (hst x)
  | _ => cases h

end Sys2Proof.Machine
end

section
/-! PROOFS. Which registers an instruction can change (`10_state.md` R22, R23; `42_alu.md` section 1). -/

namespace Sys2Proof.Machine

/-- The registers an instruction can write: its destination, VF where it computes a flag, and V0 to VX for FX65. -/
def writesReg : Instr → RegIdx → Bool
  | .ldImm x _, k | .addImm x _, k | .ldReg x _, k | .orReg x _, k | .andReg x _, k | .xorReg x _, k => k = x
  | .rnd x _, k | .ldVxDt x, k | .ldVxK x, k => k = x
  | .addReg x _, k | .subReg x _, k | .shr x _, k | .subnReg x _, k | .shl x _, k => k = regF ∨ k = x
  | .drw _ _ _, k => k = regF
  | .loadRegs x, k => k ≤ x
  | _, _ => false

theorem reg_setReg_of_ne {s : State} {x k : RegIdx} {b : Byte} (h : k ≠ x) : (s.setReg x b).reg k = s.reg k := by
  rw [State.reg_setReg, if_neg h]

theorem reg_setRegAndFlag_of_ne {s : State} {x k : RegIdx} {b flag : Byte} (hf : k ≠ regF) (hx : k ≠ x) :
    (s.setRegAndFlag x b flag).reg k = s.reg k := by
  rw [State.reg_setRegAndFlag, if_neg hf, if_neg hx]

theorem execLoadRegs_reg {x k : RegIdx} {s t : State} (h : execLoadRegs x s = .next t) (hk : x < k) : t.reg k = s.reg k := by
  unfold execLoadRegs at h
  split at h
  · cases h
    rw [State.reg_setV, Fin.getElem_fin, setRegsFrom_getElem, dif_neg]
    · rfl
    · have := Fin.lt_def.mp hk
      rw [State.readBytes_length]
      omega
  · exact (raise_ne_next _ _ _ h).elim

theorem execLdVxK_reg {x k : RegIdx} {s t : State} (h : execLdVxK x s = .next t) (hk : k ≠ x) : t.reg k = s.reg k := by
  unfold execLdVxK at h
  split at h
  · split at h <;> cases h
    · exact reg_setReg_of_ne hk
    · rfl
  · cases h; rfl

theorem execSkp_next {x : RegIdx} {s t : State} (h : execSkp x s = .next t) : ∃ c, t = s.skipIf c := by
  by_cases hk : (s.reg x).toNat < 16
  · cases (execSkp_key hk).symm.trans h; exact ⟨_, rfl⟩
  · exact (raise_ne_next _ _ _ ((execSkp_noKey hk).symm.trans h)).elim

theorem execSknp_next {x : RegIdx} {s t : State} (h : execSknp x s = .next t) : ∃ c, t = s.skipIf c := by
  by_cases hk : (s.reg x).toNat < 16
  · cases (execSknp_key hk).symm.trans h; exact ⟨_, rfl⟩
  · exact (raise_ne_next _ _ _ ((execSknp_noKey hk).symm.trans h)).elim

theorem execJp_next {nnn : Addr} {s t : State} (h : execJp nnn s = .next t) : t = s.setPc (zextAddr nnn) := by
  unfold execJp at h
  split at h
  · exact (raise_ne_next _ _ _ h).elim
  · cases h; rfl

/-- Of the instructions with an effect beyond V, I, PC and the log, only a draw writes a register, which is VF. -/
theorem Effect.reg_eq {i : Instr} {k : RegIdx} {s t : State} (h : Effect s i t) (hi : onRegistersOnly i = false)
    (hk : writesReg i k = false) : t.reg k = s.reg k := by
  cases h with
  | onRegisters i t kind frame pc => exact absurd (hi.symm.trans kind) Bool.false_ne_true
  | drawn => exact reg_setReg_of_ne (of_decide_eq_false hk)
  | digits | regsStored => exact State.writeBytes_reg ..
  | ret | call | cls | drawSkipped | dtSet | stSet => rfl

/-- An instruction leaves every register it does not write. -/
theorem exec_reg {i : Instr} {k : RegIdx} {s t : State} (h : exec i s = .next t) (hk : writesReg i k = false) :
    t.reg k = s.reg k := by
  cases i with
  | ret | call | cls | drw | ldB | storeRegs | ldDtVx | ldStVx => exact (exec_effect h).reg_eq rfl hk
  | ldImm | addImm | ldReg | orReg | andReg | xorReg | rnd | ldVxDt =>
    cases h; exact reg_setReg_of_ne (of_decide_eq_false hk)
  | addReg | subReg | shr | subnReg | shl =>
    obtain ⟨hf, hx⟩ := not_or.mp (of_decide_eq_false hk)
    cases h; exact reg_setRegAndFlag_of_ne hf hx
  | ldVxK x => exact execLdVxK_reg h (of_decide_eq_false hk)
  | loadRegs x => exact execLoadRegs_reg h (not_le.mp (of_decide_eq_false hk))
  | jpV0 nnn =>
    by_cases hw : nnn.toNat + (s.reg reg0).toNat > 0xFFF
    · cases (execJpV0_wrap hw).symm.trans h; rfl
    · cases (execJpV0_noWrap hw).symm.trans h; rfl
  | addI x =>
    by_cases hw : s.i.toNat + (s.reg x).toNat > 0xFFFF
    · cases (execAddI_wrap hw).symm.trans h; rfl
    · cases (execAddI_noWrap hw).symm.trans h; rfl
  | skp x => obtain ⟨c, rfl⟩ := execSkp_next h; exact State.skipIf_reg ..
  | sknp x => obtain ⟨c, rfl⟩ := execSknp_next h; exact State.skipIf_reg ..
  | seImm | sneImm | seReg | sneReg => cases h; exact State.skipIf_reg ..
  | jp nnn => rw [execJp_next h, State.setPc_reg]
  | sys | ldI | ldF => cases h; rfl

/-- VF is the last register, so FX65 writes it only where X = F. -/
theorem eq_regF_of_le {x : RegIdx} (h : regF ≤ x) : x = regF := le_antisymm (Fin.le_last x) h

/-- Settles O53: the instructions that can write VF, by what they write. -/
theorem onlyFlagWritersChangeVf : Obligations.OnlyFlagWritersChangeVf := by
  intro i s t h hne
  have hw : writesReg i regF = true := by
    by_contra hk
    exact hne (exec_reg h (Bool.eq_false_of_not_eq_true hk))
  cases i with
  | addReg | subReg | shr | subnReg | shl | drw => simp
  | ldImm | addImm | rnd | ldReg | orReg | andReg | xorReg | ldVxDt | ldVxK =>
    cases of_decide_eq_true hw
    simp
  | loadRegs x =>
    cases eq_regF_of_le (of_decide_eq_true hw)
    simp
  | _ => cases hw

end Sys2Proof.Machine
end

section
/-! PROOFS. Which instructions change memory (`20_memory.md` R63). -/

namespace Sys2Proof.Machine

/-- A byte's value is settled by the listed bytes and the instance's font. -/
theorem State.readsSame_of_mem_config {s t : State} (hmem : t.mem = s.mem) (hconfig : t.config = s.config) :
    s.ReadsSame t := fun a => by
  rw [State.readByte, State.readByte, hmem, hconfig]

/-- Only FX33 and FX55 store to memory. -/
theorem Effect.mem_eq {s t : State} {i : Instr} (h : Effect s i t) (hldB : ∀ x, i ≠ .ldB x)
    (hstore : ∀ x, i ≠ .storeRegs x) : t.mem = s.mem := by
  cases h with
  | digits x bs => exact absurd rfl (hldB x)
  | regsStored x bs => exact absurd rfl (hstore x)
  | onRegisters i t kind frame pc => rw [frame]
  | ret | call | cls | drawSkipped | drawn | dtSet | stSet => rfl

/-- Settles O49: by the effect of each instruction the listed bytes stay, and no instruction changes the font that the others
read as. -/
theorem onlyStoresChangeMemory : Obligations.OnlyStoresChangeMemory := by
  intro i s t hldB hstore h
  have he : Effect s i t := exec_effect h
  have hmem : t.mem = s.mem := he.mem_eq hldB hstore
  obtain ⟨hconfig, _⟩ := he.fixed
  exact ⟨hmem, State.readsSame_of_mem_config hmem hconfig⟩

end Sys2Proof.Machine
end

section
/-! PROOFS. The decoder and the encoder (`30_encoding.md` R80 to R85): what the decoder answers on every word, said once, and from
it that the two are inverse, that decoding follows the opcode map, and which words are unknown. -/

namespace Sys2Proof

/-! ## An opcode from its fixed fields -/

theorem packXYN_eq {op : Word} {f n : Nibble} (hf : fieldF op = f) (hn : fieldN op = n) :
    packXYN f (fieldX op) (fieldY op) n = op := by
  rw [← hf, ← hn, packXYN_fields]

theorem packXNN_eq {op : Word} {f : Nibble} {nn : Byte} (hf : fieldF op = f) (hnn : fieldNN op = nn) :
    packXNN f (fieldX op) nn = op := by
  rw [← hf, ← hnn, packXNN_fields]

theorem packNNN_eq {op : Word} {f : Nibble} {nnn : Addr} (hf : fieldF op = f) (hnnn : fieldNNN op = nnn) :
    packNNN f nnn = op := by
  rw [← hf, ← hnnn, packNNN_fields]

/-! ## What the decoder answers -/

/-- The five groups of unknown opcodes (R85). -/
def InUnknownSpace (op : Word) : Prop :=
  (fieldF op = 0x5 ∧ fieldN op ≠ 0) ∨
  (fieldF op = 0x8 ∧ fieldN op ∈ [0x8, 0x9, 0xA, 0xB, 0xC, 0xD, 0xF]) ∨
  (fieldF op = 0x9 ∧ fieldN op ≠ 0) ∨
  (fieldF op = 0xE ∧ fieldNN op ∉ [0x9E, 0xA1]) ∨
  (fieldF op = 0xF ∧ fieldNN op ∉ [0x07, 0x0A, 0x15, 0x18, 0x1E, 0x29, 0x33, 0x55, 0x65])

/-- A decoder's answer fits an opcode: an instruction is well formed and has the opcode as its encoding, and a reject names the
opcode, which is unknown. -/
def Fits (op : Word) : Except DecodeReject Instr → Prop
  | .ok i => i.wellFormed = true ∧ encode i = op
  | .error e => e = .unknownOpcode op ∧ InUnknownSpace op

theorem decodeFamily0_fits {op : Word} (hf : fieldF op = 0x0) : Fits op (.ok (decodeFamily0 op)) := by
  unfold decodeFamily0
  split
  · next h => exact ⟨rfl, packNNN_eq hf h⟩
  split
  · next h => exact ⟨rfl, packNNN_eq hf h⟩
  · next hcls hret => exact ⟨by simp [Instr.wellFormed, hcls, hret], packNNN_eq hf rfl⟩

/-- The low nibbles that name none of family 8's nine instructions. -/
theorem family8_unknown_nibble (n : Nibble) :
    n ∉ [0x0, 0x1, 0x2, 0x3, 0x4, 0x5, 0x6, 0x7, 0xE] → n ∈ [0x8, 0x9, 0xA, 0xB, 0xC, 0xD, 0xF] := by
  revert n; decide

theorem decodeFamily8_fits {op : Word} (hf : fieldF op = 0x8) : Fits op (decodeFamily8 op) := by
  unfold decodeFamily8
  split
  case h_10 => exact ⟨rfl, .inr (.inl ⟨hf, family8_unknown_nibble _ (by simp_all [BitVec.toNat_eq])⟩)⟩
  all_goals exact ⟨rfl, packXYN_eq hf (BitVec.eq_of_toNat_eq ‹_›)⟩

theorem decodeFamilyE_fits {op : Word} (hf : fieldF op = 0xE) : Fits op (decodeFamilyE op) := by
  unfold decodeFamilyE
  split
  · next h => exact ⟨rfl, packXNN_eq hf h⟩
  split
  · next h => exact ⟨rfl, packXNN_eq hf h⟩
  · next h h' => exact ⟨rfl, .inr (.inr (.inr (.inl ⟨hf, by simp [h, h']⟩)))⟩

theorem decodeFamilyF_fits {op : Word} (hf : fieldF op = 0xF) : Fits op (decodeFamilyF op) := by
  unfold decodeFamilyF
  repeat' split
  case isFalse => exact ⟨rfl, .inr (.inr (.inr (.inr ⟨hf, by simp [*]⟩)))⟩
  all_goals exact ⟨rfl, packXNN_eq hf ‹_›⟩

/-- The family nibble that `decode` names in no case of its own. -/
theorem nibble_eq_F (n : Nibble) :
    n ∉ [0x0, 0x1, 0x2, 0x3, 0x4, 0x5, 0x6, 0x7, 0x8, 0x9, 0xA, 0xB, 0xC, 0xD, 0xE] → n = 0xF := by
  revert n; decide

/-- What the decoder answers on each word, by its family. -/
theorem decode_fits (op : Word) : Fits op (decode op) := by
  unfold decode
  split
  case h_1 h => exact decodeFamily0_fits (BitVec.eq_of_toNat_eq h)
  case h_2 h | h_3 h | h_11 h | h_12 h => exact ⟨rfl, packNNN_eq (BitVec.eq_of_toNat_eq h) rfl⟩
  case h_4 h | h_5 h | h_7 h | h_8 h | h_13 h => exact ⟨rfl, packXNN_eq (BitVec.eq_of_toNat_eq h) rfl⟩
  case h_6 h =>
    have hf : fieldF op = 0x5 := BitVec.eq_of_toNat_eq h
    split
    · next hn => exact ⟨rfl, packXYN_eq hf hn⟩
    · next hn => exact ⟨rfl, .inl ⟨hf, hn⟩⟩
  case h_9 h => exact decodeFamily8_fits (BitVec.eq_of_toNat_eq h)
  case h_10 h =>
    have hf : fieldF op = 0x9 := BitVec.eq_of_toNat_eq h
    split
    · next hn => exact ⟨rfl, packXYN_eq hf hn⟩
    · next hn => exact ⟨rfl, .inr (.inr (.inl ⟨hf, hn⟩))⟩
  case h_14 h => exact ⟨rfl, packXYN_eq (BitVec.eq_of_toNat_eq h) rfl⟩
  case h_15 h => exact decodeFamilyE_fits (BitVec.eq_of_toNat_eq h)
  case h_16 => exact decodeFamilyF_fits (nibble_eq_F _ (by simp_all [BitVec.toNat_eq]))

theorem decode_ok {op : Word} {i : Instr} (h : decode op = .ok i) : i.wellFormed = true ∧ encode i = op := by
  have hfits := decode_fits op
  rwa [h] at hfits

theorem decode_error {op : Word} {e : DecodeReject} (h : decode op = .error e) :
    e = .unknownOpcode op ∧ InUnknownSpace op := by
  have hfits := decode_fits op
  rwa [h] at hfits

/-- A word that decodes to no instruction is rejected by its own value. -/
theorem decode_error_of_ne_ok {op : Word} (h : ∀ i, decode op ≠ .ok i) : decode op = .error (.unknownOpcode op) := by
  cases hd : decode op with
  | ok i => exact absurd hd (h i)
  | error e => rw [(decode_error hd).1]

/-- Settles O2: the decoder's answer fits the opcode. -/
theorem encodeOfDecode : Obligations.EncodeOfDecode := fun _ _ => decode_ok

/-! ## Decoding an encoding -/

theorem decode_encode {i : Instr} (h : i.wellFormed = true) : decode (encode i) = .ok i := by
  cases i with
  | sys nnn =>
    obtain ⟨hcls, hret⟩ : nnn ≠ 0x0E0#12 ∧ nnn ≠ 0x0EE#12 := by simpa [Instr.wellFormed] using h
    simp [encode, decode, decodeFamily0, hcls, hret]
  | cls | ret => rfl
  | jp | call | seImm | sneImm | seReg | ldImm | addImm | sneReg | ldI | jpV0 | rnd | drw => simp [encode, decode]
  | ldReg | orReg | andReg | xorReg | addReg | subReg | shr | subnReg | shl => simp [encode, decode, decodeFamily8]
  | skp | sknp => simp [encode, decode, decodeFamilyE]
  | ldVxDt | ldVxK | ldDtVx | ldStVx | addI | ldF | ldB | storeRegs | loadRegs => simp [encode, decode, decodeFamilyF]

/-- Settles O1: the two bytes are the encoding again, which decodes to the instruction. -/
theorem decodeOfEncode : Obligations.DecodeOfEncode := by
  intro i rest h
  rw [decodeBytes, opcodeOfBytes_high_low, decode_encode h]

/-! ## The rows of the opcode map -/

theorem row_mem_opcodeMap (i : Instr) : i.row ∈ opcodeMap := by
  cases i <;> simp only [Instr.row] <;> decide

open Laws.SelectsItsRow in
theorem row_selects_encode (i : Instr) : i.row.selects (encode i) = true := by
  cases i
  exacts [sys _, cls, ret, jp _, call _, seImm .., sneImm .., seReg .., ldImm .., addImm .., ldReg .., orReg .., andReg ..,
    xorReg .., addReg .., subReg .., shr .., subnReg .., shl .., sneReg .., ldI _, jpV0 _, rnd .., drw .., skp _, sknp _,
    ldVxDt _, ldVxK _, ldDtVx _, ldStVx _, addI _, ldF _, ldB _, storeRegs _, loadRegs _]

/-! A row that selects an opcode settles the fields under its mask. -/

theorem fields_of_selects_F000 {value op : Word} (h : OpcodeRow.selects ⟨value, 0xF000⟩ op = true) :
    fieldF op = fieldF value := by
  have hand : op &&& 0xF000 = value := eq_of_beq h
  rw [← hand, ← packNNN_fields op]
  simp

theorem fields_of_selects_F00F {value op : Word} (h : OpcodeRow.selects ⟨value, 0xF00F⟩ op = true) :
    fieldF op = fieldF value ∧ fieldN op = fieldN value := by
  have hand : op &&& 0xF00F = value := eq_of_beq h
  rw [← hand, ← packXYN_fields op]
  simp

theorem fields_of_selects_F0FF {value op : Word} (h : OpcodeRow.selects ⟨value, 0xF0FF⟩ op = true) :
    fieldF op = fieldF value ∧ fieldNN op = fieldNN value := by
  have hand : op &&& 0xF0FF = value := eq_of_beq h
  rw [← hand, ← packXNN_fields op]
  simp

theorem eq_of_selects_FFFF {value op : Word} (h : OpcodeRow.selects ⟨value, 0xFFFF⟩ op = true) : op = value := by
  have hand : op &&& 0xFFFF = value := eq_of_beq h
  exact BitVec.and_allOnes.symm.trans hand

/-- Row 1 takes what rows 2 and 3 leave of family 0. -/
theorem decodeFamily0_sys {op : Word} (hf : fieldF op = 0x0) (hcls : op ≠ 0x00E0) (hret : op ≠ 0x00EE) :
    decodeFamily0 op = .sys (fieldNNN op) := by
  have hcls' : fieldNNN op ≠ 0x0E0#12 := fun h => hcls ((packNNN_eq hf h).symm.trans (by decide))
  have hret' : fieldNNN op ≠ 0x0EE#12 := fun h => hret ((packNNN_eq hf h).symm.trans (by decide))
  rw [decodeFamily0, if_neg hcls', if_neg hret']

/-- An opcode that a row selects decodes to an instruction of that row. -/
theorem decode_of_selects {op : Word} {j : Instr} (hsys : j.row.value = 0x0000 → op ≠ 0x00E0 ∧ op ≠ 0x00EE)
    (h : j.row.selects op = true) : ∃ i, decode op = .ok i ∧ i.row = j.row := by
  cases j with
  | sys =>
    have hf : fieldF op = 0x0 := fields_of_selects_F000 h
    obtain ⟨hcls, hret⟩ := hsys rfl
    rw [decode, hf, decodeFamily0_sys hf hcls hret]
    exact ⟨_, rfl, rfl⟩
  | cls | ret =>
    rw [eq_of_selects_FFFF h]
    exact ⟨_, rfl, rfl⟩
  | jp | call | seImm | sneImm | ldImm | addImm | ldI | jpV0 | rnd | drw =>
    have hf := fields_of_selects_F000 h
    rw [decode, hf]
    exact ⟨_, rfl, rfl⟩
  | seReg | sneReg =>
    obtain ⟨hf, hn⟩ := fields_of_selects_F00F h
    rw [decode, hf, hn]
    exact ⟨_, rfl, rfl⟩
  | ldReg | orReg | andReg | xorReg | addReg | subReg | shr | subnReg | shl =>
    obtain ⟨hf, hn⟩ := fields_of_selects_F00F h
    rw [decode, hf, decodeFamily8, hn]
    exact ⟨_, rfl, rfl⟩
  | skp | sknp =>
    obtain ⟨hf, hnn⟩ := fields_of_selects_F0FF h
    rw [decode, hf, decodeFamilyE, hnn]
    exact ⟨_, rfl, rfl⟩
  | ldVxDt | ldVxK | ldDtVx | ldStVx | addI | ldF | ldB | storeRegs | loadRegs =>
    obtain ⟨hf, hnn⟩ := fields_of_selects_F0FF h
    rw [decode, hf, decodeFamilyF, hnn]
    exact ⟨_, rfl, rfl⟩

/-- Settles O3: what a row selects decodes to an instruction of the row, and an opcode that decodes is the encoding of its
instruction, which its row selects. -/
theorem decodeFollowsOpcodeMap : Obligations.DecodeFollowsOpcodeMap := by
  intro op r hr hsys
  obtain ⟨j, -, rfl⟩ := List.mem_map.mp hr
  refine ⟨decode_of_selects hsys, ?_⟩
  rintro ⟨i, hi, hrow⟩
  obtain ⟨-, rfl⟩ := decode_ok hi
  rw [← hrow]
  exact row_selects_encode i

/-! ## The unknown opcodes -/

/-- No instruction's encoding is in one of the five groups. -/
theorem encode_not_unknown (i : Instr) : ¬ InUnknownSpace (encode i) := by
  cases i with
  | cls | ret => unfold InUnknownSpace; decide
  | _ => simp [InUnknownSpace, encode]

theorem decode_error_iff_unknown (op : Word) : decode op = .error (.unknownOpcode op) ↔ InUnknownSpace op := by
  refine ⟨fun h => (decode_error h).2, fun h => decode_error_of_ne_ok fun i hi => ?_⟩
  obtain ⟨-, rfl⟩ := decode_ok hi
  exact encode_not_unknown i h

/-- The words 0x00E0 and 0x00EE, which O3 leaves out for row 1, are not unknown: they decode. -/
theorem decode_error_iff_no_row (op : Word) :
    decode op = .error (.unknownOpcode op) ↔ ∀ r ∈ opcodeMap, r.selects op = false := by
  constructor
  · intro hd r hr
    have hcls : op ≠ 0x00E0 := by rintro rfl; exact absurd hd nofun
    have hret : op ≠ 0x00EE := by rintro rfl; exact absurd hd nofun
    by_contra hsel
    obtain ⟨i, hi, -⟩ := (decodeFollowsOpcodeMap op r hr fun _ => ⟨hcls, hret⟩).mp (Bool.eq_true_of_not_eq_false hsel)
    exact absurd (hd.symm.trans hi) nofun
  · refine fun h => decode_error_of_ne_ok fun i hi => ?_
    obtain ⟨-, rfl⟩ := decode_ok hi
    exact absurd ((row_selects_encode i).symm.trans (h _ (row_mem_opcodeMap i))) nofun

/-- Settles O4: the decoder rejects the five groups, which are the words no row selects, each by its own value. -/
theorem unknownOpcodesAreTheListedOnes : Obligations.UnknownOpcodesAreTheListedOnes := fun op =>
  ⟨decode_error_iff_unknown op, decode_error_iff_no_row op, fun _ h => (decode_error h).1⟩

/-- Settles O5, by running the decoder on the nine words. -/
theorem sampleWordsDecode : Obligations.SampleWordsDecode := by
  unfold Obligations.SampleWordsDecode
  decide

end Sys2Proof
end

section
/-! PROOFS. One cycle (`40_cycle.md` R100 to R107): the instruction it runs, the tick, the unknown opcode, a fetch past memory, and
what the two timers hold at its end. -/

namespace Sys2Proof.Machine

/-! ## The instruction and the tick -/

/-- Settles O6: a step is the instruction's result with the tick after it, for each of the three results. -/
theorem stepRunsTheDecodedInstruction : Obligations.StepRunsTheDecodedInstruction := by
  intro s i hf hd
  have hstep : step s = thenTick (exec i s.fetched) := step_of_decode hf hd
  exact ⟨fun _ he => hstep.trans (congrArg thenTick he), fun _ he => hstep.trans (congrArg thenTick he),
    fun _ he => hstep.trans (congrArg thenTick he)⟩

/-- A timer expires when it holds 1, as a byte or as a number. -/
theorem decide_eq_one_iff (b : Byte) : decide (b = 1) = true ↔ b.toNat = 1 := by
  rw [decide_eq_true_iff, BitVec.toNat_eq]
  rfl

/-- Settles O7: a tick takes 1 from each timer by the subtraction that stops at 0, and its signals are tests of the values
before it. -/
theorem tickCountsDownAndSignals : Obligations.TickCountsDownAndSignals := by
  intro s
  have hdt : s.tick.dt.toNat = s.dt.toNat - 1 := tickTimer_toNat s.dt
  have hst : s.tick.st.toNat = s.st.toNat - 1 := tickTimer_toNat s.st
  exact ⟨fun _ => hdt, fun h0 => by omega, fun _ => hst, fun h0 => by omega, decide_eq_one_iff s.dt, decide_eq_one_iff s.st,
    decide_eq_true_iff, rfl, rfl⟩

/-! ## The unknown opcode and the fetch past memory -/

/-- A step from a state that can fetch an unknown opcode logs it. -/
theorem step_of_unknown {s : State} {bad : Word} (hf : s.CanFetch) (hd : decode s.opcodeAtPc = .error (.unknownOpcode bad)) :
    step s = .next (s.fetched.emit (.unknownOpcode bad)).tick := by
  rw [step_of_fetch hf.1 hf.2, beginCycle_advancePc, fetchOpcode_eq, dispatch, hd]
  rfl

/-- Settles O8: to log is all that an unknown opcode does between the fetch and the tick. -/
theorem unknownOpcodeIsALoggedNoop : Obligations.UnknownOpcodeIsALoggedNoop :=
  fun _ hf hd => ⟨_, step_of_unknown hf hd, rfl, rfl, fun _ => rfl⟩

/-- A step that cannot fetch the opcode's second byte raises its error before PC is advanced. -/
theorem step_of_fetchFault {s : State} (hi : s.initialized = true) (hp : 0xFFF ≤ s.pc.toNat) :
    step s = raise (.segmentationFault s.pc) s.beginCycle := by
  have hfault : s.fetchFaults = true := decide_eq_true (Nat.lt_succ_of_le hp)
  rw [step, if_neg (by simp [hi]), if_pos hfault]

/-- Settles O9: the state left is the one a cycle begins with, and raising an error asserts no signal. -/
theorem fetchPastMemoryFaults : Obligations.FetchPastMemoryFaults :=
  fun _ hi hp => ⟨_, step_of_fetchFault hi hp, rfl, rfl⟩

/-! ## The timers at the end of a cycle -/

/-- Only FX15 changes DT. -/
theorem Effect.dt_eq {s t : State} {i : Instr} (h : Effect s i t) (hi : ∀ x, i ≠ .ldDtVx x) : t.dt = s.dt := by
  cases h with
  | dtSet x => exact absurd rfl (hi x)
  | onRegisters i t kind frame pc => rw [frame]
  | digits | regsStored => exact State.writeBytes_dt ..
  | ret | call | cls | drawSkipped | drawn | stSet => rfl

/-- Only FX18 changes ST. -/
theorem Effect.st_eq {s t : State} {i : Instr} (h : Effect s i t) (hi : ∀ x, i ≠ .ldStVx x) : t.st = s.st := by
  cases h with
  | stSet x => exact absurd rfl (hi x)
  | onRegisters i t kind frame pc => rw [frame]
  | digits | regsStored => exact State.writeBytes_st ..
  | ret | call | cls | drawSkipped | drawn | dtSet => rfl

/-- A step that answers a next state ran what the bytes at PC decode to, and then ticked. -/
theorem step_next_of_decode {s t : State} {i : Instr} (h : step s = .next t) (hd : decode s.opcodeAtPc = .ok i) :
    ∃ u, exec i s.fetched = .next u ∧ t = u.tick := by
  obtain ⟨hf, _⟩ := step_next_effect h
  exact thenTick_next.mp ((step_of_decode hf hd).symm.trans h)

/-- Under every opcode but FX15 the tick finds DT as it was before the cycle. -/
theorem step_next_dt {s t : State} (h : step s = .next t) (hd : ∀ x, decode s.opcodeAtPc ≠ .ok (.ldDtVx x)) :
    t.dt = tickTimer s.dt := by
  obtain ⟨_, u, rfl, ⟨i, hi, he⟩ | ⟨_, _, rfl⟩⟩ := step_next_effect h
  · exact congrArg tickTimer (he.dt_eq fun x hx => hd x (hx ▸ hi))
  · rfl

/-- Under every opcode but FX18 the tick finds ST as it was before the cycle. -/
theorem step_next_st {s t : State} (h : step s = .next t) (hd : ∀ x, decode s.opcodeAtPc ≠ .ok (.ldStVx x)) :
    t.st = tickTimer s.st := by
  obtain ⟨_, u, rfl, ⟨i, hi, he⟩ | ⟨_, _, rfl⟩⟩ := step_next_effect h
  · exact congrArg tickTimer (he.st_eq fun x hx => hd x (hx ▸ hi))
  · rfl

/-- After FX15 the tick finds VX in DT. -/
theorem step_ldDtVx_dt {s t : State} {x : RegIdx} (h : step s = .next t) (hd : decode s.opcodeAtPc = .ok (.ldDtVx x)) :
    t.dt = tickTimer (s.reg x) := by
  obtain ⟨u, hu, rfl⟩ := step_next_of_decode h hd
  cases hu
  rfl

/-- After FX18 the tick finds VX in ST. -/
theorem step_ldStVx_st {s t : State} {x : RegIdx} (h : step s = .next t) (hd : decode s.opcodeAtPc = .ok (.ldStVx x)) :
    t.st = tickTimer (s.reg x) := by
  obtain ⟨u, hu, rfl⟩ := step_next_of_decode h hd
  cases hu
  rfl

/-- Settles O44: the byte each timer's tick finds, less 1 but not below 0. -/
theorem timersAtTheEndOfACycle : Obligations.TimersAtTheEndOfACycle := by
  refine fun s t h => ⟨fun x hd => ?_, fun hd => ?_, fun x hd => ?_, fun hd => ?_⟩
  · rw [step_ldDtVx_dt h hd, tickTimer_toNat]
  · rw [step_next_dt h hd, tickTimer_toNat]
  · rw [step_ldStVx_st h hd, tickTimer_toNat]
  · rw [step_next_st h hd, tickTimer_toNat]

end Sys2Proof.Machine
end

section
/-! PROOFS. Control transfer (`41_control.md` R120 to R132): SYS, return, the two jumps, call and the four skips, with an equation
for each way an instruction can go. -/

namespace Sys2Proof.Machine

/-! ## SYS and the jumps -/

/-- Settles O13: to log is all that SYS does. -/
theorem sysIsALoggedNoop : Obligations.SysIsALoggedNoop :=
  ⟨fun nnn hcls hret => decode_encode (i := .sys nnn) (by simpa [Instr.wellFormed] using And.intro hcls hret),
    fun _ _ => ⟨_, rfl, rfl, fun _ => rfl⟩⟩

/-- A 12-bit target never fails the test against the memory size. -/
theorem execJp_eq (nnn : Addr) (s : State) : execJp nnn s = .next (s.setPc (zextAddr nnn)) :=
  if_neg (Nat.not_le.mpr nnn.isLt)

/-- Settles O15: the jump's one outcome is the state with PC set. -/
theorem jumpSetsPc : Obligations.JumpSetsPc := fun nnn s =>
  ⟨decode_encode (i := .jp nnn) rfl, _, execJp_eq nnn s, zextAddr_toNat nnn, rfl, fun _ => rfl⟩

/-- An address taken modulo the memory size fits PC. -/
theorem wrappedAddr_toNat (n : Nat) : (BitVec.ofNat 16 (n % 0x1000)).toNat = n % 0x1000 := by
  rw [BitVec.toNat_ofNat]
  omega

/-- Settles O20, by whether the sum wraps. -/
theorem computedJumpWraps : Obligations.ComputedJumpWraps := by
  refine fun nnn s => ⟨decode_encode (i := .jpV0 nnn) rfl, ?_⟩
  by_cases hwrap : nnn.toNat + (s.reg reg0).toNat > 0xFFF
  · refine ⟨_, execJpV0_wrap hwrap, wrappedAddr_toNat _, ?_, rfl, fun _ => rfl⟩
    rw [if_pos hwrap]
    rfl
  · refine ⟨_, execJpV0_noWrap hwrap, wrappedAddr_toNat _, ?_, rfl, fun _ => rfl⟩
    rw [if_neg hwrap, List.append_nil, State.setPc_out]

/-! ## The skips -/

theorem State.skipIf_beq (s : State) (a b : Byte) :
    s.skipIf (a == b) = { s with pc := if a = b then s.pc + 2 else s.pc } := by
  simp only [State.skipIf_eq, beq_iff_eq]

theorem State.skipIf_bne (s : State) (a b : Byte) :
    s.skipIf (a != b) = { s with pc := if a = b then s.pc else s.pc + 2 } := by
  simp only [State.skipIf_eq, bne_iff_ne, ne_eq, ite_not]

theorem State.skipIf_readsSame (s : State) (c : Bool) : s.ReadsSame (s.skipIf c) := s.skipIf_readByte c

/-- Settles O18: each word is its instruction's encoding, and each instruction is a skip on a test of VX against NN. -/
theorem skipOnImmediate : Obligations.SkipOnImmediate := fun x nn s =>
  ⟨decode_encode (i := .seImm x nn) rfl, decode_encode (i := .sneImm x nn) rfl,
    ⟨_, rfl, s.skipIf_beq (s.reg x) nn, s.skipIf_readsSame _⟩, ⟨_, rfl, s.skipIf_bne (s.reg x) nn, s.skipIf_readsSame _⟩⟩

/-- Settles O19: each word is its instruction's encoding, and each instruction is a skip on a test of VX against VY. -/
theorem skipOnRegister : Obligations.SkipOnRegister := fun x y s =>
  ⟨decode_encode (i := .seReg x y) rfl, decode_encode (i := .sneReg x y) rfl,
    ⟨_, rfl, s.skipIf_beq (s.reg x) (s.reg y), s.skipIf_readsSame _⟩,
    ⟨_, rfl, s.skipIf_bne (s.reg x) (s.reg y), s.skipIf_readsSame _⟩⟩

/-! ## Return and call -/

/-- What a slot holds after a write to slot `n`, in the order the statements test it. -/
theorem slot_set_eq (stack : Vector Word 16) {n : Nat} (hn : n < 16) (w : Word) (j : Fin 16) :
    (stack.set n w)[j] = if j.val = n then w else stack[j] :=
  (slot_set stack n hn w j).trans (if_congr eq_comm rfl rfl)

/-- With no slot used a return finds the stack empty. -/
theorem execRet_empty {s : State} (h : s.sp = 0) : execRet s = .fault (.subroutineStackEmpty s.noSignal) := if_pos h

/-- A return takes the address of the last used slot where it is in the workspace. -/
theorem execRet_accepts {s : State} {k : Fin 16} (h : s.sp.toNat = k.val + 1)
    (hlo : wsStart s.config ≤ s.stack[k].toNat) (hhi : s.stack[k].toNat ≤ 0xFFF) :
    execRet s = .next { s with pc := s.stack[k], sp := BitVec.ofNat 8 k.val, stack := s.stack.set k.val 0 } := by
  rw [execRet_eq s k h, if_pos ((s.inWorkspace_iff _).mpr ⟨hlo, hhi⟩)]

/-- A return rejects the address of the last used slot where it is outside the workspace. -/
theorem execRet_rejects {s : State} {k : Fin 16} (h : s.sp.toNat = k.val + 1)
    (hout : s.stack[k].toNat < wsStart s.config ∨ 0xFFF < s.stack[k].toNat) :
    execRet s = .fault (.segmentationFault s.stack[k] { s.noSignal with sp := BitVec.ofNat 8 k.val }) := by
  rw [execRet_eq s k h, if_neg]
  rw [s.inWorkspace_iff]
  omega

/-- Settles O14: the three ways a return goes, with what the slots hold after the one that clears slot `k`. -/
theorem returnPopsTheStack : Obligations.ReturnPopsTheStack := by
  refine ⟨rfl, fun _ => execRet_empty, fun s k hused => ⟨fun hlo hhi => ?_, fun hout => ?_⟩⟩
  · have hslots (j : Fin 16) : (s.stack.set k.val 0)[j] = if j = k then 0 else s.stack[j] :=
      (slot_set_eq s.stack k.isLt 0 j).trans (if_congr Fin.ext_iff.symm rfl rfl)
    exact ⟨_, execRet_accepts hused hlo hhi, slot_toNat k, hslots, rfl, fun _ => rfl⟩
  · exact ⟨_, execRet_rejects hused hout, slot_toNat k, rfl⟩

/-- A call of a target below the workspace rejects it, whatever SP is. -/
theorem execCall_rejects {nnn : Addr} {s : State} (h : nnn.toNat < wsStart s.config) :
    execCall nnn s = .fault (.segmentationFault (zextAddr nnn) s.noSignal) := by
  have hout : ¬ s.inWorkspace nnn.toNat = true := by
    rw [s.inWorkspace_iff]
    omega
  exact if_neg hout

/-- A call into the workspace with all 16 slots used finds the stack full. -/
theorem execCall_full {nnn : Addr} {s : State} (hw : s.inWorkspace nnn.toNat = true) (h : s.sp.toNat = 16) :
    execCall nnn s = .fault (.subroutineStackOverflow s.noSignal) := by
  have hsp : s.sp = 16 := BitVec.eq_of_toNat_eq h
  rw [execCall, if_pos hw, if_pos hsp]
  rfl

/-- Settles O16: the three ways a call goes, with what the slots hold after the one that pushes. -/
theorem callPushesAndJumps : Obligations.CallPushesAndJumps := by
  intro nnn s
  have hin (h : wsStart s.config ≤ nnn.toNat) : s.inWorkspace nnn.toNat = true := by simpa [inWorkspace_addr] using h
  refine ⟨decode_encode (i := .call nnn) rfl, fun hlo hfree => ?_, execCall_rejects, fun hlo => execCall_full (hin hlo)⟩
  exact ⟨_, execCall_eq nnn s (hin hlo) hfree, zextAddr_toNat nnn, sp_add_one_toNat hfree, slot_set_eq s.stack hfree s.pc, rfl,
    fun _ => rfl⟩

/-- Settles O21: the call left its post-fetch PC in the slot that SP named, and the return looks at that slot. -/
theorem returnUndoesCall : Obligations.ReturnUndoesCall := by
  intro nnn s t u hlo hhi hcall hstack hsp hconfig
  obtain ⟨_, hfree, rfl⟩ := execCall_next hcall
  obtain ⟨k, hk⟩ : ∃ k : Fin 16, k.val = s.sp.toNat := ⟨⟨_, hfree⟩, rfl⟩
  have hused : u.sp.toNat = k.val + 1 := by rw [hsp, hk]; exact sp_add_one_toNat hfree
  have htop : u.stack[k] = s.pc := by rw [hstack, slot_set_eq s.stack hfree, if_pos hk]
  have hcleared : u.stack.set k.val 0 = s.stack.set s.sp.toNat 0 := by simp [hstack, hk]
  have hback : BitVec.ofNat 8 k.val = s.sp := BitVec.eq_of_toNat_eq ((slot_toNat k).trans hk)
  refine ⟨_, execRet_accepts hused (by rwa [hconfig, htop]) (by rwa [htop]), htop, hback, fun j => ?_⟩
  rw [hcleared, slot_set_eq s.stack hfree]

end Sys2Proof.Machine
end

section
/-! PROOFS. The V registers (`42_alu.md`): what each instruction puts in VX and in VF, and that nothing else changes. -/

namespace Sys2Proof.Machine

/-! ## The two register writes and their frames -/

/-- A register written changes neither another register, nor another field, nor memory. -/
theorem setReg_frame (s : State) (x : RegIdx) (b : Byte) :
    (∀ k, k ≠ x → (s.setReg x b).reg k = s.reg k) ∧ s.setReg x b = { s with v := (s.setReg x b).v } ∧
      s.ReadsSame (s.setReg x b) :=
  ⟨fun _ => reg_setReg_of_ne, rfl, s.setReg_readByte x b⟩

/-- A result and its flag change no third register, no other field and no memory. -/
theorem setRegAndFlag_frame (s : State) (x : RegIdx) (b flag : Byte) :
    (∀ k, k ≠ x → k ≠ regF → (s.setRegAndFlag x b flag).reg k = s.reg k) ∧
      s.setRegAndFlag x b flag = { s with v := (s.setRegAndFlag x b flag).v } ∧ s.ReadsSame (s.setRegAndFlag x b flag) :=
  ⟨fun _ hx hf => reg_setRegAndFlag_of_ne hf hx, rfl, s.setRegAndFlag_readByte x b flag⟩

theorem reg_setRegAndFlag_dest {s : State} {x : RegIdx} {b flag : Byte} (h : x ≠ regF) :
    (s.setRegAndFlag x b flag).reg x = b := by
  rw [State.reg_setRegAndFlag, if_neg h, if_pos rfl]

theorem reg_setRegAndFlag_flag {s : State} {x : RegIdx} {b flag : Byte} : (s.setRegAndFlag x b flag).reg regF = flag := by
  rw [State.reg_setRegAndFlag, if_pos rfl]

/-! ## Results and flags as numbers -/

theorem flagByte_toNat (c : Bool) : (flagByte c).toNat = c.toNat := by cases c <;> rfl

theorem flagByte_decide_toNat (p : Prop) [Decidable p] : (flagByte (decide p)).toNat = if p then 1 else 0 := by
  rw [flagByte_toNat, Bool.toNat, Bool.cond_decide]

theorem carryFlag_toNat (x y : Byte) : (carryFlag x y).toNat = if x.toNat + y.toNat > 255 then 1 else 0 :=
  flagByte_decide_toNat _

theorem noBorrowFlag_toNat (x y : Byte) : (noBorrowFlag x y).toNat = if x.toNat ≥ y.toNat then 1 else 0 :=
  flagByte_decide_toNat _

theorem rightOutFlag_toNat (x : Byte) : (rightOutFlag x).toNat = x.toNat % 2 := by
  rw [rightOutFlag, flagByte_toNat, ← BitVec.testBit_toNat, Nat.toNat_testBit, Nat.pow_zero, Nat.div_one]

theorem leftOutFlag_toNat (x : Byte) : (leftOutFlag x).toNat = x.toNat / 128 := by
  have hlt : x.toNat / 128 < 2 := Nat.div_lt_of_lt_mul x.isLt
  rw [leftOutFlag, flagByte_toNat, ← BitVec.testBit_toNat, Nat.toNat_testBit]
  exact Nat.mod_eq_of_lt hlt

/-- A subtraction modulo 256, with the 256 on the minuend's side. -/
theorem byte_sub_toNat (x y : Byte) : (x - y).toNat = (256 + x.toNat - y.toNat) % 256 := by
  have := y.isLt
  rw [BitVec.toNat_sub]
  omega

theorem byte_shiftRight_one_toNat (x : Byte) : (x >>> 1).toNat = x.toNat / 2 := by
  rw [BitVec.toNat_ushiftRight, Nat.shiftRight_one]

theorem byte_shiftLeft_one_toNat (x : Byte) : (x <<< 1).toNat = 2 * x.toNat % 256 := by
  rw [BitVec.toNat_shiftLeft, Nat.shiftLeft_eq, Nat.pow_one, Nat.mul_comm]

/-! ## The instructions that write VX alone -/

/-- Settles O22: each of the three is one register write. -/
theorem loadsAndImmediateAdd : Obligations.LoadsAndImmediateAdd := by
  intro x y nn s
  refine ⟨decode_encode (i := .ldImm x nn) rfl, decode_encode (i := .addImm x nn) rfl, decode_encode (i := .ldReg x y) rfl,
    ⟨_, rfl, ?_, setReg_frame ..⟩, ⟨_, rfl, ?_, setReg_frame ..⟩, ⟨_, rfl, ?_, setReg_frame ..⟩⟩
  · exact s.reg_setReg_same x nn
  · rw [State.reg_setReg_same, BitVec.toNat_add]
  · exact s.reg_setReg_same x (s.reg y)

/-- Settles O23: each of the three is one register write, of a byte whose bits are known. -/
theorem logicLeavesVfAlone : Obligations.LogicLeavesVfAlone := by
  intro x y s
  refine ⟨⟨_, rfl, fun b => ?_, setReg_frame ..⟩, ⟨_, rfl, fun b => ?_, setReg_frame ..⟩,
    ⟨_, rfl, fun b => ?_, setReg_frame ..⟩⟩
  · rw [State.reg_setReg_same, BitVec.getLsbD_or]
  · rw [State.reg_setReg_same, BitVec.getLsbD_and]
  · rw [State.reg_setReg_same, BitVec.getLsbD_xor]

/-- Settles O27: one register write, and the random byte stays the free value it is. -/
theorem randomByteIsMasked : Obligations.RandomByteIsMasked := by
  refine fun x nn s => ⟨_, rfl, fun b => ?_, setReg_frame ..⟩
  rw [State.reg_setReg_same, BitVec.getLsbD_and]

/-! ## The instructions that write VX and then VF -/

/-- Settles O24: the sum goes to VX and then the carry to VF. -/
theorem addWritesCarry : Obligations.AddWritesCarry := by
  refine fun x y s => ⟨_, rfl, fun hx => ?_, ?_, setRegAndFlag_frame ..⟩
  · rw [reg_setRegAndFlag_dest hx, BitVec.toNat_add]
  · rw [reg_setRegAndFlag_flag, carryFlag_toNat]

/-- Settles O25: the difference goes to VX and then the no-borrow flag to VF, in either order of the operands. -/
theorem subtractWritesNoBorrow : Obligations.SubtractWritesNoBorrow := by
  refine fun x y s => ⟨⟨_, rfl, fun hx => ?_, ?_, setRegAndFlag_frame ..⟩,
    ⟨_, rfl, fun hx => ?_, ?_, setRegAndFlag_frame ..⟩⟩
  · rw [reg_setRegAndFlag_dest hx, byte_sub_toNat]
  · rw [reg_setRegAndFlag_flag, noBorrowFlag_toNat]
  · rw [reg_setRegAndFlag_dest hx, byte_sub_toNat]
  · rw [reg_setRegAndFlag_flag, noBorrowFlag_toNat]

/-- Settles O26: half or double of VX goes to VX and then the bit moved out to VF, and VY is in neither. -/
theorem shiftsMoveByOne : Obligations.ShiftsMoveByOne := by
  refine fun x y s => ⟨⟨_, rfl, fun hx => ?_, ?_, setRegAndFlag_frame ..⟩,
    ⟨_, rfl, fun hx => ?_, ?_, setRegAndFlag_frame ..⟩⟩
  · rw [reg_setRegAndFlag_dest hx, byte_shiftRight_one_toNat]
  · rw [reg_setRegAndFlag_flag, rightOutFlag_toNat]
  · rw [reg_setRegAndFlag_dest hx, byte_shiftLeft_one_toNat]
  · rw [reg_setRegAndFlag_flag, leftOutFlag_toNat]

end Sys2Proof.Machine
end

section
/-! PROOFS. The index register and the memory transfers (`43_index_memory.md`): what each instruction puts in I, in memory and in the
registers, that nothing else changes, and the span test that comes before every access. -/

namespace Sys2Proof.Machine

/-! ## The index register -/

/-- I written changes no other field and no memory. -/
theorem setI_frame (s : State) (w : Word) : s.setI w = { s with i := (s.setI w).i } ∧ s.ReadsSame (s.setI w) :=
  ⟨rfl, s.setI_readByte w⟩

theorem lowNibble_toNat (b : Byte) : (b &&& 0x0F).toNat = b.toNat % 16 := by
  rw [BitVec.toNat_and]
  exact Nat.and_two_pow_sub_one_eq_mod b.toNat 4

/-- The glyph of the highest digit starts far below 2^16, so the address is exact. -/
theorem glyphAddress_toNat (b : Byte) : (glyphAddress b).toNat = 0x050 + 5 * (b.toNat % 16) := by
  rw [glyphAddress, lowNibble_toNat, BitVec.toNat_ofNat, fontBase, glyphSize]
  omega

/-- Settles O28: each of the two is one write of I. -/
theorem indexRegisterLoads : Obligations.IndexRegisterLoads := fun nnn x s =>
  ⟨decode_encode (i := .ldI nnn) rfl, decode_encode (i := .ldF x) rfl, ⟨_, rfl, zextAddr_toNat nnn, setI_frame ..⟩,
    ⟨_, rfl, glyphAddress_toNat (s.reg x), setI_frame ..⟩⟩

/-- Settles O29, by whether the sum wraps. -/
theorem indexAddWraps : Obligations.IndexAddWraps := by
  refine fun x s => ⟨decode_encode (i := .addI x) rfl, ?_⟩
  by_cases hwrap : s.i.toNat + (s.reg x).toNat > 0xFFFF
  · refine ⟨_, execAddI_wrap hwrap, BitVec.toNat_ofNat .., ?_, rfl, fun _ => rfl⟩
    rw [if_pos hwrap]
    rfl
  · refine ⟨_, execAddI_noWrap hwrap, BitVec.toNat_ofNat .., ?_, rfl, fun _ => rfl⟩
    rw [if_neg hwrap, List.append_nil, State.setI_out]

/-! ## A span of memory -/

theorem spanFits_iff (base : Word) (last : Nat) : spanFits base last = true ↔ base.toNat + last ≤ 0xFFF := decide_eq_true_iff

theorem not_spanFits {base : Word} {last : Nat} (h : base.toNat + last > 0xFFF) : ¬ spanFits base last = true :=
  (spanFits_iff base last).not.mpr (Nat.not_le.mpr h)

section
variable {s : State} {a : Nat} {bs : List Byte}

/-- A byte of the span written reads as the byte of the list in its place. -/
theorem readByte_writeBytes_inside (h : a + bs.length ≤ memSize) {k : Nat} (hk : k < bs.length) :
    (s.writeBytes a bs).readByte (a + k) = bs[k] := by
  rw [State.readByte_writeBytes s a bs _ h, dif_pos (by omega)]
  simp only [Nat.add_sub_cancel_left]

/-- A byte below or above the span written reads as before. -/
theorem readByte_writeBytes_outside (h : a + bs.length ≤ memSize) {k : Nat} (hk : k < a ∨ a + bs.length ≤ k) :
    (s.writeBytes a bs).readByte k = s.readByte k := by
  rw [State.readByte_writeBytes s a bs _ h, dif_neg (by omega)]

end

/-! ## The stores -/

@[simp] theorem decimalDigits_length (b : Byte) : (decimalDigits b).length = 3 := rfl

/-- Each of the three digits is below 256, so its byte holds it exactly. -/
theorem decimalDigits_toNat (b : Byte) :
    (decimalDigits b)[0].toNat = b.toNat / 100 ∧ (decimalDigits b)[1].toNat = b.toNat / 10 % 10 ∧
      (decimalDigits b)[2].toNat = b.toNat % 10 := by
  have := b.isLt
  simp only [decimalDigits, List.getElem_cons_zero, List.getElem_cons_succ, BitVec.toNat_ofNat]
  omega

/-- Settles O30: the three digits are one span written, after the test that the span is in memory. -/
theorem decimalDigitsAreStored : Obligations.DecimalDigitsAreStored := by
  refine fun x s => ⟨decode_encode (i := .ldB x) rfl, fun hfits => ?_, fun hpast => execLdB_past (not_spanFits hpast)⟩
  have hspan : s.i.toNat + (decimalDigits (s.reg x)).length ≤ memSize := Nat.succ_le_succ hfits
  have hdigit (k : Nat) (hk : k < 3) : (s.writeBytes s.i.toNat (decimalDigits (s.reg x))).readByte (s.i.toNat + k) =
      (decimalDigits (s.reg x))[k] := readByte_writeBytes_inside hspan hk
  obtain ⟨hhundreds, htens, hones⟩ := decimalDigits_toNat (s.reg x)
  exact ⟨_, execLdB_fits ((spanFits_iff ..).mpr hfits), (congrArg _ (hdigit 0 (by decide))).trans hhundreds,
    (congrArg _ (hdigit 1 (by decide))).trans htens, (congrArg _ (hdigit 2 (by decide))).trans hones,
    fun _ => readByte_writeBytes_outside hspan, State.writeBytes_eq ..⟩

/-- Settles O31: the registers are one span written, after the test that the span is in memory. -/
theorem registersAreStored : Obligations.RegistersAreStored := by
  refine fun x s => ⟨fun hfits => ?_, fun hpast => execStoreRegs_past (not_spanFits hpast)⟩
  have hlen : (s.regsUpTo x).length = x.val + 1 := s.regsUpTo_length x
  have hspan : s.i.toNat + (s.regsUpTo x).length ≤ memSize := by rw [hlen]; exact Nat.succ_le_succ hfits
  refine ⟨_, execStoreRegs_fits ((spanFits_iff ..).mpr hfits), fun k hk => ?_, fun a ha => ?_, State.writeBytes_eq ..⟩
  · rw [readByte_writeBytes_inside hspan (by rw [hlen]; exact Nat.lt_succ_of_le hk)]
    exact s.regsUpTo_getElem x k.val _
  · exact readByte_writeBytes_outside hspan (by rwa [hlen])

/-! ## The load -/

/-- What a register holds after the bytes of a span are put in V0 on. -/
theorem setRegsFrom_readBytes (s : State) (a n : Nat) (k : RegIdx) :
    (setRegsFrom s.v 0 (s.readBytes a n))[k] = if k.val < n then s.readByte (a + k.val) else s.reg k := by
  rw [Fin.getElem_fin, setRegsFrom_getElem]
  by_cases hk : k.val < n
  · rw [if_pos hk, dif_pos ⟨Nat.zero_le _, by rwa [State.readBytes_length]⟩]
    exact s.readBytes_getElem a n k.val _
  · rw [if_neg hk, dif_neg (by rw [State.readBytes_length]; exact fun h => hk h.2)]
    rfl

/-- Settles O32: the bytes of the span go to the registers after the test that the span is in memory. -/
theorem registersAreLoaded : Obligations.RegistersAreLoaded := by
  refine fun x s => ⟨fun hfits => ?_, fun hpast => execLoadRegs_past (not_spanFits hpast)⟩
  refine ⟨_, execLoadRegs_fits ((spanFits_iff ..).mpr hfits), fun k => ?_, rfl, fun _ => rfl⟩
  rw [State.reg_setV, setRegsFrom_readBytes]
  exact if_congr Nat.lt_succ_iff rfl rfl

end Sys2Proof.Machine
end

section
/-! PROOFS. The display (`44_display.md`): what a clear makes of every pixel, the four ways a draw goes, and the drawn screen pixel by
pixel, from which VF and the second of two equal draws follow. -/

namespace Sys2Proof.Machine

/-! ## The clear -/

theorem emptyRow_getMsbD (px : Nat) : (0 : BitVec 64).getMsbD px = false := BitVec.getMsbD_zero

theorem pixel_cleared (s : State) (px : Nat) {py : Nat} (h : py < 32) :
    (s.setFb (Vector.replicate 32 0)).pixel px py = false := by
  rw [State.pixel_setFb _ _ _ _ h, Vector.getElem_replicate, emptyRow_getMsbD]

/-- Settles O35: place `p` of the host's view is a pixel of one of the 32 rows, and all of them are cleared. -/
theorem clearMakesEveryPixelZero : Obligations.ClearMakesEveryPixelZero := by
  refine ⟨decode_encode (i := .cls) rfl, fun s => ⟨_, rfl, fun p => ?_, rfl, s.setFb_readByte _⟩⟩
  have hrow : p.val / 64 < 32 := Nat.div_lt_of_lt_mul p.isLt
  rw [Fin.getElem_fin, State.readFramebuffer_getElem, pixel_cleared s _ hrow]
  rfl

/-! ## A draw by cases -/

/-- What the row loop makes of the screen, and whether it met a collision. -/
def State.drawnRows (s : State) (x y : RegIdx) (n : Nibble) : Screen × Bool :=
  drawRows (s.reg x).toNat (s.readBytes s.i.toNat n.toNat) (s.reg y).toNat s.fb false

/-- The state a draw leaves that is neither skipped nor an error. -/
def State.afterDraw (s : State) (x y : RegIdx) (n : Nibble) : State :=
  (s.setFb (s.drawnRows x y n).1).setReg regF (collisionFlag (s.drawnRows x y n).2)

theorem spriteSpanFits_iff (base : Word) (n : Nibble) : spriteSpanFits base n = true ↔ base.toNat + 8 * n.toNat ≤ 0x1000 :=
  decide_eq_true_iff

section
variable {x y : RegIdx} {n : Nibble} {s : State}

theorem execDrw_noRows (h : n = 0) : execDrw x y n s = .next (s.emit (.drawSkipped .zeroHeight)) := if_pos h

theorem execDrw_offScreen (hn : n ≠ 0) (h : 64 ≤ (s.reg x).toNat ∨ 32 ≤ (s.reg y).toNat) :
    execDrw x y n s = .next (s.emit (.drawSkipped .offScreen)) := by
  rw [execDrw, if_neg hn, if_pos h]

/-- A draw that is not skipped is its span test. -/
theorem execDrw_onScreen (hn : n ≠ 0) (hx : (s.reg x).toNat < 64) (hy : (s.reg y).toNat < 32) :
    execDrw x y n s =
      if spriteSpanFits s.i n then .next (s.afterDraw x y n) else .fault (.segmentationFault s.i s.noSignal) := by
  rw [execDrw, if_neg hn, if_neg (by omega)]
  rfl

theorem execDrw_fits (hn : n ≠ 0) (hx : (s.reg x).toNat < 64) (hy : (s.reg y).toNat < 32)
    (h : s.i.toNat + 8 * n.toNat ≤ 0x1000) : execDrw x y n s = .next (s.afterDraw x y n) := by
  rw [execDrw_onScreen hn hx hy, if_pos ((spriteSpanFits_iff ..).mpr h)]

theorem execDrw_past (hn : n ≠ 0) (hx : (s.reg x).toNat < 64) (hy : (s.reg y).toNat < 32)
    (h : s.i.toNat + 8 * n.toNat > 0x1000) : execDrw x y n s = .fault (.segmentationFault s.i s.noSignal) := by
  rw [execDrw_onScreen hn hx hy, if_neg ((spriteSpanFits_iff ..).not.mpr (Nat.not_le.mpr h))]

/-- A draw that is not skipped and answers a next state passed its span test. -/
theorem execDrw_next {t : State} (hn : n ≠ 0) (hx : (s.reg x).toNat < 64) (hy : (s.reg y).toNat < 32)
    (h : execDrw x y n s = .next t) : s.i.toNat + 8 * n.toNat ≤ 0x1000 ∧ t = s.afterDraw x y n := by
  by_cases hspan : s.i.toNat + 8 * n.toNat ≤ 0x1000
  · rw [execDrw_fits hn hx hy hspan] at h
    cases h
    exact ⟨hspan, rfl⟩
  · rw [execDrw_past hn hx hy (Nat.not_le.mp hspan)] at h
    cases h

end

/-- Settles O37: the two skip tests come first, and a skipped draw is one log event. -/
theorem skippedDrawOnlyLogs : Obligations.SkippedDrawOnlyLogs := fun _ _ _ s =>
  ⟨fun hn => ⟨_, execDrw_noRows hn, rfl, s.emit_readByte _⟩,
    fun hn hoff => ⟨_, execDrw_offScreen hn hoff, rfl, s.emit_readByte _⟩⟩

/-- Settles O38: the span test comes before the row loop. -/
theorem drawPastMemoryFaults : Obligations.DrawPastMemoryFaults := fun _ _ _ _ => execDrw_past

/-! ## The drawn screen, pixel by pixel -/

/-- The sprite of a draw as it lies on the screen: its bit at a pixel of the rectangle, and nothing elsewhere (`44_display.md` R183). -/
def State.spriteBit (s : State) (x y : RegIdx) (n : Nibble) (px py : Nat) : Bool :=
  if (s.reg x).toNat ≤ px ∧ px < (s.reg x).toNat + 8 ∧ (s.reg y).toNat ≤ py ∧ py < (s.reg y).toNat + n.toNat then
    (s.readByte (s.i.toNat + (py - (s.reg y).toNat))).getLsbD (7 - (px - (s.reg x).toNat))
  else false

section
variable {s : State} {x y : RegIdx} {n : Nibble} {px py : Nat}

/-- The sprite byte of row `r`, placed on the screen, is row `r` of the sprite. -/
theorem spriteRow_readByte_getMsbD {r : Nat} (hr : r < n.toNat) (hpx : px < 64) :
    (spriteRow (s.readByte (s.i.toNat + r)) (s.reg x).toNat).getMsbD px = s.spriteBit x y n px ((s.reg y).toNat + r) := by
  rw [spriteRow_getMsbD _ _ _ hpx, State.spriteBit, Nat.add_sub_cancel_left]
  by_cases hin : (s.reg x).toNat ≤ px ∧ px < (s.reg x).toNat + 8
  · rw [if_pos (by omega), decide_eq_true hin, Bool.true_and]
  · rw [if_neg (by omega), decide_eq_false hin, Bool.false_and]

/-- A row above or below the sprite has none of its bits. -/
theorem spriteBit_otherRow (h : ¬ ((s.reg y).toNat ≤ py ∧ py < (s.reg y).toNat + n.toNat)) :
    s.spriteBit x y n px py = false := if_neg (by omega)

/-- A draw XORs the screen with the sprite. -/
theorem pixel_afterDraw (hpx : px < 64) (hpy : py < 32) :
    (s.afterDraw x y n).pixel px py = (s.pixel px py ^^ s.spriteBit x y n px py) := by
  rw [State.afterDraw, State.setReg_pixel, State.pixel_setFb _ _ _ _ hpy, State.pixel_of_lt _ _ _ hpy, State.drawnRows,
    drawRows_screen]
  simp only [State.readBytes_length]
  by_cases hin : (s.reg y).toNat ≤ py ∧ py < (s.reg y).toNat + n.toNat
  · obtain ⟨r, rfl⟩ := Nat.exists_eq_add_of_le hin.1
    have hr : r < n.toNat := by omega
    rw [dif_pos (by omega), BitVec.getMsbD_xor, State.readBytes_getElem, Nat.add_sub_cancel_left,
      spriteRow_readByte_getMsbD (y := y) hr hpx]
  · rw [dif_neg (by omega), spriteBit_otherRow hin, Bool.xor_false]

theorem row_ne_zero_iff (row : BitVec 64) : row ≠ 0 ↔ ∃ px, px < 64 ∧ row.getMsbD px = true := by
  constructor
  · intro hne
    by_contra hnone
    push Not at hnone
    refine hne (BitVec.eq_of_getMsbD_eq fun px hpx => ?_)
    rw [emptyRow_getMsbD, Bool.eq_false_of_not_eq_true (hnone px hpx)]
  · rintro ⟨px, -, hset⟩ rfl
    rw [emptyRow_getMsbD] at hset
    cases hset

/-- The row loop meets a collision where the sprite has a pixel that is set. -/
theorem drawnRows_collision_iff :
    (s.drawnRows x y n).2 = true ↔
      ∃ px py, px < 64 ∧ py < 32 ∧ s.pixel px py = true ∧ s.spriteBit x y n px py = true := by
  rw [State.drawnRows, drawRows_hit]
  simp only [Bool.false_eq_true, false_or, row_ne_zero_iff, BitVec.getMsbD_and, Bool.and_eq_true, State.readBytes_getElem,
    State.readBytes_length]
  constructor
  · rintro ⟨r, hr, hrow, px, hpx, hset, hbit⟩
    exact ⟨px, _, hpx, hrow, (s.pixel_of_lt _ _ hrow).trans hset, (spriteRow_readByte_getMsbD hr hpx).symm.trans hbit⟩
  · rintro ⟨px, py, hpx, hpy, hset, hbit⟩
    by_cases hin : (s.reg y).toNat ≤ py ∧ py < (s.reg y).toNat + n.toNat
    · obtain ⟨r, rfl⟩ := Nat.exists_eq_add_of_le hin.1
      have hr : r < n.toNat := by omega
      exact ⟨r, hr, hpy, px, hpx, (s.pixel_of_lt _ _ hpy).symm.trans hset, (spriteRow_readByte_getMsbD hr hpx).trans hbit⟩
    · rw [spriteBit_otherRow hin] at hbit
      cases hbit

end

/-! ## The flag -/

/-- Some pixel goes from set to unset between two screens (`44_display.md` R184). -/
def State.Unsets (s t : State) : Prop := ∃ px py, px < 64 ∧ py < 32 ∧ s.pixel px py = true ∧ t.pixel px py = false

section
variable {s : State} {x y : RegIdx} {n : Nibble}

/-- XOR with the sprite unsets a pixel where both are set. -/
theorem unsets_afterDraw_iff : s.Unsets (s.afterDraw x y n) ↔ (s.drawnRows x y n).2 = true := by
  rw [drawnRows_collision_iff, State.Unsets]
  refine exists_congr fun px => exists_congr fun py => and_congr_right fun hpx => and_congr_right fun hpy =>
    and_congr_right fun hset => ?_
  rw [pixel_afterDraw hpx hpy, hset, Bool.true_xor, Bool.not_eq_false']

theorem afterDraw_regF : (s.afterDraw x y n).reg regF = collisionFlag (s.drawnRows x y n).2 := State.reg_setReg_same ..

theorem afterDraw_reg {k : RegIdx} (h : k ≠ regF) : (s.afterDraw x y n).reg k = s.reg k := reg_setReg_of_ne h

theorem afterDraw_regF_of_unsets (h : s.Unsets (s.afterDraw x y n)) : (s.afterDraw x y n).reg regF = 1 := by
  rw [afterDraw_regF, unsets_afterDraw_iff.mp h]
  rfl

theorem afterDraw_regF_of_not_unsets (h : ¬ s.Unsets (s.afterDraw x y n)) : (s.afterDraw x y n).reg regF = 0 := by
  rw [afterDraw_regF, Bool.eq_false_of_not_eq_true (unsets_afterDraw_iff.not.mp h)]
  rfl

theorem afterDraw_regF_eq_one_iff : (s.afterDraw x y n).reg regF = 1 ↔ s.Unsets (s.afterDraw x y n) := by
  refine ⟨fun hone => ?_, afterDraw_regF_of_unsets⟩
  by_contra hnone
  rw [afterDraw_regF_of_not_unsets hnone] at hone
  cases hone

end

/-- Settles O36: the drawn screen is the XOR with the sprite, whose bits are those of the rectangle, and VF tells whether a pixel was
unset. -/
theorem drawXorsTheClippedSprite : Obligations.DrawXorsTheClippedSprite := by
  intro x y n s hn hx hy hspan
  refine ⟨s.afterDraw x y n, execDrw_fits hn hx hy hspan, fun px py hpx hpy => ⟨fun hin => ?_, fun hout => ?_⟩,
    afterDraw_regF_of_unsets, afterDraw_regF_of_not_unsets, fun _ => afterDraw_reg, rfl, fun _ => rfl⟩
  · rw [pixel_afterDraw hpx hpy, State.spriteBit, if_pos hin]
  · rw [pixel_afterDraw hpx hpy, State.spriteBit, if_neg hout, Bool.xor_false]

/-! ## The same draw twice -/

/-- A draw whose coordinates are not in VF leaves its own sprite where it was. -/
theorem afterDraw_spriteBit {s : State} {x y : RegIdx} {n : Nibble} (hx : x ≠ regF) (hy : y ≠ regF) (px py : Nat) :
    (s.afterDraw x y n).spriteBit x y n px py = s.spriteBit x y n px py := by
  simp only [State.spriteBit, afterDraw_reg hx, afterDraw_reg hy]
  rfl

/-- Settles O39: the second XOR with the same sprite undoes the first, and a pixel it unsets is one that the first draw set. -/
theorem drawingTwiceRestoresTheScreen : Obligations.DrawingTwiceRestoresTheScreen := by
  intro x y n s t hxF hyF hn hx hy hdraw
  obtain ⟨hspan, rfl⟩ := execDrw_next hn hx hy hdraw
  have hagain : exec (.drw x y n) (s.afterDraw x y n) = .next ((s.afterDraw x y n).afterDraw x y n) :=
    execDrw_fits hn (by rwa [afterDraw_reg hxF]) (by rwa [afterDraw_reg hyF]) hspan
  have hback {px py : Nat} (hpx : px < 64) (hpy : py < 32) :
      ((s.afterDraw x y n).afterDraw x y n).pixel px py = s.pixel px py := by
    rw [pixel_afterDraw hpx hpy, afterDraw_spriteBit hxF hyF, pixel_afterDraw hpx hpy, Bool.xor_assoc, Bool.xor_self,
      Bool.xor_false]
  refine ⟨_, hagain, fun px py => hback, afterDraw_regF_eq_one_iff.trans ?_⟩
  refine exists_congr fun px => exists_congr fun py => and_congr_right fun hpx => and_congr_right fun hpy => ?_
  rw [hback hpx hpy, and_comm]

end Sys2Proof.Machine
end

section
/-! PROOFS. The keypad and the timers (`45_keypad_timers.md` R190 to R195): the two skips on a key, the wait for a key under each of
its policies, and the reads and writes of the timers. -/

namespace Sys2Proof.Machine

/-! ## The skips on a key -/

section
variable {x : RegIdx} {s : State} {k : Fin 16}

/-- With a key's number in VX the index test passes, and the skip is on that key. -/
theorem execSkp_namedKey (h : (s.reg x).toNat = k.val) : execSkp x s = .next (s.skipIf s.key[k]) := by
  have hlt : (s.reg x).toNat < 16 := h ▸ k.isLt
  rw [execSkp_key hlt]
  simp only [h, Fin.getElem_fin]

theorem execSknp_namedKey (h : (s.reg x).toNat = k.val) : execSknp x s = .next (s.skipIf (!s.key[k])) := by
  have hlt : (s.reg x).toNat < 16 := h ▸ k.isLt
  rw [execSknp_key hlt]
  simp only [h, Fin.getElem_fin]

end

/-- A skip on the opposite of a condition skips where the condition fails. -/
theorem State.skipIf_not (s : State) (c : Bool) : s.skipIf (!c) = { s with pc := if c then s.pc else s.pc + 2 } := by
  cases c <;> rfl

/-- Settles O40: with a key's number in VX each instruction is a skip on that key, and above 15 each fails the index test. -/
theorem skipOnKey : Obligations.SkipOnKey := by
  refine fun x s => ⟨fun k hk => ⟨?_, ?_⟩, fun hx => ?_⟩
  · exact ⟨_, execSkp_namedKey hk, s.skipIf_eq _, s.skipIf_readsSame _⟩
  · exact ⟨_, execSknp_namedKey hk, s.skipIf_not _, s.skipIf_readsSame _⟩
  · have hnoKey : ¬ (s.reg x).toNat < 16 := Nat.not_lt.mpr hx
    exact ⟨execSkp_noKey hnoKey, execSknp_noKey hnoKey⟩

/-! ## The wait for a key -/

theorem State.lowestKey_eq_find (s : State) : s.lowestKey = Fin.find? fun k => s.key[k] := Fin.find?_eq_find?_finRange.symm

theorem State.lowestKey_eq_none_iff {s : State} : s.lowestKey = none ↔ ∀ k : Fin 16, s.key[k] = false := by
  rw [State.lowestKey_eq_find, Fin.find?_eq_none_iff]

theorem State.lowestKey_eq_some_iff {s : State} {k : Fin 16} :
    s.lowestKey = some k ↔ s.key[k] = true ∧ ∀ j : Fin 16, j < k → s.key[j] = false := by
  rw [State.lowestKey_eq_find, Fin.find?_eq_some_iff]

section
variable {x : RegIdx} {s : State}

/-- Under the wait policy FX0A runs again in the next cycle while no key is pressed. -/
theorem execLdVxK_waits (hp : s.config.fx0aPolicy = .wait) (h : s.lowestKey = none) :
    execLdVxK x s = .next (s.setPc (s.pc - 2)) := by
  simp only [execLdVxK, hp, h]

theorem execLdVxK_takesKey {k : RegIdx} (hp : s.config.fx0aPolicy = .wait) (h : s.lowestKey = some k) :
    execLdVxK x s = .next (s.setReg x (BitVec.ofNat 8 k.val)) := by
  simp only [execLdVxK, hp, h]

theorem execLdVxK_emptyBody (hp : s.config.fx0aPolicy = .emptyBody) : execLdVxK x s = .next s := by
  simp only [execLdVxK, hp]

end

/-- Settles O41, by the policy and whether there is a lowest pressed key. -/
theorem keyWaitFollowsItsPolicy : Obligations.KeyWaitFollowsItsPolicy := by
  refine fun x s => ⟨fun hp hnone => ?_, fun hp k hpressed hlower => ?_, fun hp => ?_⟩
  · exact ⟨_, execLdVxK_waits hp (State.lowestKey_eq_none_iff.mpr hnone), rfl, fun _ => rfl⟩
  · have hk : s.lowestKey = some k := State.lowestKey_eq_some_iff.mpr ⟨hpressed, hlower⟩
    refine ⟨_, execLdVxK_takesKey hp hk, ?_, setReg_frame ..⟩
    rw [State.reg_setReg_same, slot_toNat]
  · exact ⟨_, execLdVxK_emptyBody hp, rfl, fun _ => rfl⟩

/-! ## The timers -/

/-- Settles O42: FX07 is one register write, which the tick does not touch, and DT is still the old one when the tick finds it. -/
theorem delayTimerIsReadBeforeTheTick : Obligations.DelayTimerIsReadBeforeTheTick := by
  intro x s
  have hx : (s.setReg x s.dt).reg x = s.dt := s.reg_setReg_same x s.dt
  obtain ⟨hothers, hframe, hmem⟩ := setReg_frame s x s.dt
  exact ⟨decode_encode (i := .ldVxDt x) rfl, _, rfl, hx, hothers, hframe, hmem, hx, tickTimer_toNat s.dt⟩

/-- Settles O43: each word is its instruction's encoding, and each instruction is one write of a timer. -/
theorem timersAreSetFromVx : Obligations.TimersAreSetFromVx := fun x s =>
  ⟨decode_encode (i := .ldDtVx x) rfl, decode_encode (i := .ldStVx x) rfl, ⟨_, rfl, rfl, s.setDt_readByte _⟩,
    ⟨_, rfl, rfl, s.setSt_readByte _⟩⟩

end Sys2Proof.Machine
end

section
/-! PROOFS. Errors (`60_exceptions.md`): the kind and the left state of every error, the result code of a cycle, and the first error a
session keeps. -/

namespace Sys2Proof.Machine

/-! ## The kinds of error -/

theorem Fault.ne_unexpectedError {f : Fault} (h : f.code ≤ 4) (left : State) : f ≠ .unexpectedError left := by
  rintro rfl
  exact absurd h (by decide : ¬ 5 ≤ 4)

/-- No instruction raises kind 5, `UnexpectedError` (R206). -/
theorem exec_fault_code_le {i : Instr} {s : State} {f : Fault} (h : exec i s = .fault f) : f.code ≤ 4 := by
  cases i with
  | ret | jp | call | drw | skp | sknp | ldB | storeRegs | loadRegs | ldVxK =>
    simp only [exec, execRet, execJp, execCall, execDrw, execSkp, execSknp, execLdB, execStoreRegs, execLoadRegs, execLdVxK,
      raise] at h
    repeat' split at h
    all_goals cases h
    all_goals simp only [Fault.code]; decide
  | sys | cls | seImm | sneImm | seReg | sneReg | jpV0 | ldImm | addImm | ldReg | orReg | andReg | xorReg | addReg | subReg | shr
  | subnReg | shl | rnd | ldI | addI | ldF | ldVxDt | ldDtVx | ldStVx => cases h

/-- Nor does a cycle: its fetch fails with a segmentation fault. -/
theorem step_fault_code_le {s : State} {f : Fault} (h : step s = .fault f) : f.code ≤ 4 := by
  obtain ⟨_, ⟨_, rfl⟩ | ⟨_, i, _, he⟩⟩ := step_fault_exec h
  · exact (by decide : 1 ≤ 4)
  · exact exec_fault_code_le he

/-! ## The state an error leaves -/

/-- A failed fetch leaves the machine as it was. -/
theorem beginCycle_noSignal (s : State) :
    s.beginCycle.noSignal = { s with out := Outputs.quiet, drawCount := s.drawCount + 1 } := rfl

/-- A failed instruction leaves PC past the opcode. -/
theorem fetched_noSignal (s : State) :
    s.fetched.noSignal = { s with pc := s.pc + 2, out := Outputs.quiet, drawCount := s.drawCount + 1 } := rfl

/-- Settles O48: a failed fetch leaves PC and SP, and a failed instruction leaves the post-fetch state but for a return that had
a slot to pop. -/
theorem errorLeavesTheStatedState : Obligations.ErrorLeavesTheStatedState := by
  refine fun s f h => ⟨?_, Fault.ne_unexpectedError (step_fault_code_le h)⟩
  obtain ⟨_, ⟨hpast, rfl⟩ | ⟨hfetch, i, hdec, hexec⟩⟩ := step_fault_exec h
  · rw [if_pos hpast, if_neg (fun hret => absurd hret.1 (Nat.not_le.mpr hpast))]
    exact beginCycle_noSignal s
  · rw [if_neg (Nat.not_lt.mpr hfetch)]
    obtain ⟨hleft, hempty⟩ | ⟨rfl, hpop, hleft⟩ := exec_fault_resume hexec
    · have hnoPop : ¬ (s.pc.toNat + 1 ≤ 0xFFF ∧ decode s.opcodeAtPc = .ok .ret ∧ s.sp ≠ 0) := by
        rintro ⟨_, hret, hne⟩
        rw [hdec] at hret
        exact hne (hempty (Except.ok.inj hret))
      rw [hleft, if_neg hnoPop, fetched_noSignal]
    · rw [hleft, if_pos ⟨hfetch, hdec, hpop⟩, fetched_noSignal]
      rfl

/-! ## The result code -/

section
variable {r : Result}

theorem resultCode_eq_some_iff {c : Nat} :
    resultCode r = some c ↔ (c = 0 ∧ ∃ t, r = .next t) ∨ ∃ f, r = .fault f ∧ f.code = c := by
  cases r <;> simp [eq_comm]

/-- An error has a code other than that of Ok. -/
theorem resultCode_eq_zero_iff : resultCode r = some 0 ↔ ∃ t, r = .next t := by
  refine resultCode_eq_some_iff.trans ⟨?_, fun h => .inl ⟨rfl, h⟩⟩
  rintro (⟨-, hnext⟩ | ⟨f, -, hcode⟩)
  · exact hnext
  · exact absurd f.code_range.1 (by omega)

/-- A code other than that of Ok is an error's. -/
theorem resultCode_eq_succ_iff {c : Nat} : resultCode r = some (c + 1) ↔ ∃ f, r = .fault f ∧ f.code = c + 1 := by
  simp [resultCode_eq_some_iff]

end

theorem Fault.code_eq_one_iff {f : Fault} : f.code = 1 ↔ ∃ addr left, f = .segmentationFault addr left := by
  cases f <;> simp [Fault.code]

theorem Fault.code_eq_two_iff {f : Fault} : f.code = 2 ↔ ∃ left, f = .subroutineStackOverflow left := by
  cases f <;> simp [Fault.code]

theorem Fault.code_eq_three_iff {f : Fault} : f.code = 3 ↔ ∃ left, f = .subroutineStackEmpty left := by
  cases f <;> simp [Fault.code]

theorem Fault.code_eq_four_iff {f : Fault} : f.code = 4 ↔ ∃ index left, f = .indexOutOfBounds index left := by
  cases f <;> simp [Fault.code]

/-- A cycle that is not refused has a code, and not that of `UnexpectedError`. -/
theorem step_resultCode {s : State} (h : ∀ r, step s ≠ .refused r) : ∃ c ≤ 4, resultCode (step s) = some c := by
  cases hstep : step s with
  | next t => exact ⟨0, Nat.zero_le 4, rfl⟩
  | fault f => exact ⟨f.code, step_fault_code_le hstep, rfl⟩
  | refused r => exact absurd hstep (h r)

/-- Settles O60: from a legal initialized state a cycle is not refused, so it has a code, which tells the result's kind. -/
theorem cycleReturnsOneResultCode : Obligations.CycleReturnsOneResultCode := by
  intro s hs hi
  obtain ⟨c, hle, hc⟩ := step_resultCode fun r => stepIsNeverRefused s r hs hi
  have hcode (n : Nat) : c = n ↔ resultCode (step s) = some n := by rw [hc, Option.some_inj]
  refine ⟨c, hc, (hcode 0).trans resultCode_eq_zero_iff, (hcode 1).trans ?_, (hcode 2).trans ?_, (hcode 3).trans ?_,
    (hcode 4).trans ?_, hle⟩
  all_goals rw [resultCode_eq_succ_iff]
  · simp [Fault.code_eq_one_iff]
  · simp [Fault.code_eq_two_iff]
  · simp [Fault.code_eq_three_iff]
  · simp [Fault.code_eq_four_iff]

/-! ## The first error of a session -/

section
variable {m m' : Session}

theorem Session.cycle_next {t : State} (h : step m.machine = .next t) : m.cycle = .ok { m with machine := t } := by
  simp only [Session.cycle, h]

/-- The record takes an error only where it holds none. -/
theorem Session.cycle_fault {f : Fault} (h : step m.machine = .fault f) :
    m.cycle = .ok { machine := f.resume, firstFault := some (m.firstFault.getD f) } := by
  simp only [Session.cycle, h, Option.or_some]

theorem Session.cycle_refused {r : Refusal} (h : step m.machine = .refused r) : m.cycle = .error r := by
  simp only [Session.cycle, h]

/-- A cycle keeps a recorded error, also where it ends with one of its own. -/
theorem Session.cycle_keeps_firstFault {f : Fault} (hf : m.firstFault = some f) (h : m.cycle = .ok m') :
    m'.firstFault = some f := by
  cases hstep : step m.machine with
  | next t => rw [Session.cycle_next hstep] at h; cases h; exact hf
  | fault g => rw [Session.cycle_fault hstep, hf] at h; cases h; rfl
  | refused r => rw [Session.cycle_refused hstep] at h; cases h

/-- No host action clears or replaces a recorded error (R209). -/
theorem Session.act_keeps_firstFault {a : HostAction} {f : Fault} (hf : m.firstFault = some f) (h : m.act a = .ok m') :
    m'.firstFault = some f := by
  cases a with
  | init | setKeys k | readFramebuffer => cases h; exact hf
  | load source =>
    simp only [Session.act] at h
    split at h <;> (cases h; exact hf)
  | cycle => exact Session.cycle_keeps_firstFault hf h

theorem Session.run_keeps_firstFault {as : List HostAction} {f : Fault} (hf : m.firstFault = some f) (h : m.run as = .ok m') :
    m'.firstFault = some f := by
  induction as generalizing m with
  | nil => cases h; exact hf
  | cons a as ih =>
    unfold Session.run at h
    split at h
    · next m₁ ha => exact ih (Session.act_keeps_firstFault hf ha) h
    · cases h

end

/-- Settles O59: the induction over the actions, and a cycle by its result. -/
theorem sessionRecordsTheFirstError : Obligations.SessionRecordsTheFirstError :=
  ⟨fun _ _ _ _ => Session.run_keeps_firstFault, fun _ _ h => ⟨_, Session.cycle_fault h, rfl, rfl⟩,
    fun _ _ h => ⟨_, Session.cycle_next h, rfl, rfl⟩⟩

end Sys2Proof.Machine
end

section
/-! PROOFS. What the host puts in place, and stored bytes read back (`70_reset_and_hazards.md` R230, R232; `20_memory.md` section 6):
every field after `Initialize`, the program after `Load`, and a write seen by the read, by the fetch and by the block load after it. -/

namespace Sys2Proof.Machine

/-! ## `Initialize` -/

/-- `Initialize` lists no byte, so every address reads as the image with the machine's own font. -/
theorem State.init_readByte (s : State) (a : Nat) : s.init.readByte a = Memory.unlisted s.config.font a := rfl

theorem Memory.unlisted_font (font : Font) (k : Fin 80) : Memory.unlisted font (0x050 + k.val) = font[k] := by
  rw [Memory.unlisted, dif_pos (by unfold fontBase; omega)]
  simp only [fontBase, Nat.add_sub_cancel_left, Fin.getElem_fin]

theorem Memory.unlisted_zero (font : Font) {a : Nat} (h : a < 0x050 ∨ 0x0A0 ≤ a) : Memory.unlisted font a = 0 :=
  dif_neg (by unfold fontBase; omega)

theorem State.init_reg (s : State) (x : RegIdx) : s.init.reg x = 0 := Vector.getElem_replicate _

theorem State.init_key (s : State) (k : Fin 16) : s.init.key[k] = false := Vector.getElem_replicate _

/-- The screen of `Initialize` is the cleared screen. -/
theorem State.init_readFramebuffer (s : State) (p : Fin 2048) : s.init.readFramebuffer[p] = 0#1 := by
  have hpixel : s.init.pixel (p.val % 64) (p.val / 64) = false := pixel_cleared s.init _ (Nat.div_lt_of_lt_mul p.isLt)
  rw [Fin.getElem_fin, State.readFramebuffer_getElem, hpixel]
  rfl

/-- Settles O56, field by field. -/
theorem initializeSetsEveryField : Obligations.InitializeSetsEveryField := fun s =>
  ⟨fun k => (s.init_readByte _).trans (Memory.unlisted_font _ k), fun a ha => (s.init_readByte a).trans (Memory.unlisted_zero _ ha),
    s.init_reg, s.init_key, State.afterInitialize_slot _ _, rfl, rfl, rfl, rfl, s.init_readFramebuffer, s.init_pc_toNat, rfl, rfl⟩

/-! ## `Load` -/

theorem State.load_fits {s : State} {b : List Byte} (h : b.length ≤ 0x1000 - wsStart s.config) :
    s.load (some b) = .ok (s.writeBytes (wsStart s.config) b, b.length) := if_neg (Nat.not_lt.mpr h)

theorem State.load_tooLarge {s : State} {b : List Byte} (h : 0x1000 - wsStart s.config < b.length) :
    s.load (some b) = .error .tooLarge := if_pos h

/-- The workspace starts inside memory, so a length that fits the workspace ends inside memory. -/
theorem workspaceSpan_le_memSize {c : Config} {n : Nat} (h : n ≤ 0x1000 - wsStart c) : wsStart c + n ≤ memSize := by
  unfold memSize
  rcases wsStart_cases c with hstart | hstart <;> omega

/-- Settles O57: a program that fits is one span written, and the rejections come before any write. -/
theorem loadStoresTheProgram : Obligations.LoadStoresTheProgram := by
  refine fun s b => ⟨fun hfits => ?_, State.load_tooLarge, rfl⟩
  have hspan : wsStart s.config + b.length ≤ memSize := workspaceSpan_le_memSize hfits
  exact ⟨_, State.load_fits hfits, fun _ => readByte_writeBytes_inside hspan, fun _ => readByte_writeBytes_outside hspan,
    State.writeBytes_eq ..⟩

/-! ## A store and the reads after it -/

/-- Settles O34: the law of one byte written, for an address of memory. -/
theorem readGivesLastWrite : Obligations.ReadGivesLastWrite := fun s a b k ha =>
  s.readByte_writeByte a b k (Nat.lt_succ_of_le ha)

/-- A block store that answers a next state passed its span test. -/
theorem execStoreRegs_next_span {x : RegIdx} {s t : State} (h : exec (.storeRegs x) s = .next t) : s.i.toNat + x.val ≤ 0xFFF := by
  by_contra hpast
  have hfault := (registersAreStored x s).2 (Nat.lt_of_not_le hpast)
  rw [hfault] at h
  cases h

/-- Settles O33: the load's span is the store's, so the load passes its test too and reads in each place of the span the register
that was stored there. -/
theorem storeThenLoadRestoresRegisters : Obligations.StoreThenLoadRestoresRegisters := by
  intro x s t u hstore hmem hi hconfig
  have hfits : s.i.toNat + x.val ≤ 0xFFF := execStoreRegs_next_span hstore
  obtain ⟨t', hstore', hstored, -, hframe⟩ := (registersAreStored x s).1 hfits
  obtain rfl : t = t' := Host.Outcome.next.inj (hstore.symm.trans hstore')
  have hui : u.i = s.i := by rw [hi, hframe]
  have hread : t.ReadsSame u := State.readsSame_of_mem_config hmem hconfig
  obtain ⟨w, hload, hreg, -⟩ := (registersAreLoaded x u).1 (by rwa [hui])
  refine ⟨w, hload, fun k hk => ?_, fun k hk => ?_⟩
  · rw [hreg, if_pos hk, hui, hread, hstored k hk]
  · rw [hreg, if_neg (not_le.mpr hk)]

/-! ## A store at PC and the fetch after it -/

/-- Where the state can fetch, to place an instruction is to store its two bytes at PC. -/
theorem State.withFetchWord_of_canFetch {s : State} (hf : s.CanFetch) (op : Word) :
    s.withFetchWord 16 op.toNat = s.writeBytes s.pc.toNat [opcodeHigh op, opcodeLow op] := by
  obtain ⟨hinit, hpc⟩ := hf
  have hfault : s.fetchFaults = false := decide_eq_false (Nat.not_lt.mpr hpc)
  have hop : BitVec.ofNat 16 (op.toNat % 2 ^ 16) = op := by rw [Nat.mod_eq_of_lt op.isLt, BitVec.ofNat_toNat, BitVec.setWidth_eq]
  have hstate : { s with initialized := true, pc := s.pc } = s := by rw [← hinit]
  simp only [State.withFetchWord, hfault, hop, Bool.false_eq_true, if_false, hstate]

/-- The opcode at PC after its two bytes are stored there. -/
theorem opcodeAtPc_writeBytes {s : State} (hpc : s.pc.toNat + 1 ≤ 0xFFF) (op : Word) :
    (s.writeBytes s.pc.toNat [opcodeHigh op, opcodeLow op]).opcodeAtPc = op := by
  have hspan : s.pc.toNat + [opcodeHigh op, opcodeLow op].length ≤ memSize := Nat.succ_le_succ hpc
  have hhigh : (s.writeBytes s.pc.toNat [opcodeHigh op, opcodeLow op]).readByte s.pc.toNat = opcodeHigh op :=
    readByte_writeBytes_inside hspan Nat.zero_lt_two
  have hlow : (s.writeBytes s.pc.toNat [opcodeHigh op, opcodeLow op]).readByte (s.pc.toNat + 1) = opcodeLow op :=
    readByte_writeBytes_inside hspan Nat.one_lt_two
  rw [State.opcodeAtPc, State.writeBytes_pc, hhigh, hlow]
  exact opcodeOfBytes_high_low op

/-- Settles O12: the stored bytes are the opcode the step decodes, and a well-formed instruction is what its encoding decodes to. -/
theorem storedInstructionIsRunNext : Obligations.StoredInstructionIsRunNext := by
  intro s i hwf hf
  rw [State.withFetchWord_of_canFetch hf]
  apply step_of_decode
  · rw [State.CanFetch, State.writeBytes_initialized, State.writeBytes_pc]
    exact hf
  · rw [opcodeAtPc_writeBytes hf.2]
    exact decode_encode hwf

end Sys2Proof.Machine
end
